-- ==== Sys2Proof/Word.lean ====
section
/-! DEFINITION. The widths of chip8_interpreter (00_scope.md R6, R8, R9). -/

namespace Sys2Proof

/-- A RAM byte, a general register or a timer: 8 bits (R6). -/
abbrev Byte := BitVec 8

/-- An instruction word, pc, I, a stack slot: 16 bits (R6). -/
abbrev Word := BitVec 16

/-- The NNN field: a 12-bit absolute address (R91, R93). -/
abbrev Addr := BitVec 12

/-- The index of a general register, V0 to VF: every 4-bit value names one (R23). -/
abbrev Reg := Fin 16

/-- VF, register 15: a general register that is also the flag (R24). -/
abbrev vF : Reg := 15

end Sys2Proof
end

