-- ==== Sys2Proof/Syntax.lean ====
section
/-! DEFINITION. The 34 instructions of the opcode map (30_encoding.md R99), one constructor per row of
spec/opcode_table.json, with the operands of R92, R93 and R105. -/

namespace Sys2Proof

/-- An instruction. `x`, `y` name registers V[X], V[Y]; `nn` is the byte NN; `nnn` the address NNN;
`n` the row count N, which `Instr.wf` bounds. -/
inductive Instr where
  /-- 00E0 CLS (R210). -/
  | cls
  /-- 00EE RET (R140). -/
  | ret
  /-- 1NNN JP addr (R141). -/
  | jp (nnn : Addr)
  /-- 2NNN CALL addr (R142). -/
  | call (nnn : Addr)
  /-- 3XNN SE Vx, byte (R143). -/
  | seByte (x : Reg) (nn : Byte)
  /-- 4XNN SNE Vx, byte (R144). -/
  | sneByte (x : Reg) (nn : Byte)
  /-- 5XY0 SE Vx, Vy (R145). -/
  | seReg (x y : Reg)
  /-- 6XNN LD Vx, byte (R161). -/
  | ldByte (x : Reg) (nn : Byte)
  /-- 7XNN ADD Vx, byte (R162). -/
  | addByte (x : Reg) (nn : Byte)
  /-- 8XY0 LD Vx, Vy (R163). -/
  | ldReg (x y : Reg)
  /-- 8XY1 OR Vx, Vy (R164). -/
  | orReg (x y : Reg)
  /-- 8XY2 AND Vx, Vy (R165). -/
  | andReg (x y : Reg)
  /-- 8XY3 XOR Vx, Vy (R166). -/
  | xorReg (x y : Reg)
  /-- 8XY4 ADD Vx, Vy (R167). -/
  | addReg (x y : Reg)
  /-- 8XY5 SUB Vx, Vy (R168). -/
  | subReg (x y : Reg)
  /-- 8XY6 SHR Vx [, Vy]: Y is encoded, not read (R169). -/
  | shr (x y : Reg)
  /-- 8XY7 SUBN Vx, Vy (R170). -/
  | subnReg (x y : Reg)
  /-- 8XYE SHL Vx [, Vy]: Y is encoded, not read (R171). -/
  | shl (x y : Reg)
  /-- 9XY0 SNE Vx, Vy (R146). -/
  | sneReg (x y : Reg)
  /-- ANNN LD I, addr (R190). -/
  | ldI (nnn : Addr)
  /-- BNNN JP V0, addr (R147). -/
  | jpV0 (nnn : Addr)
  /-- CXNN RND Vx, byte (R172). -/
  | rnd (x : Reg) (nn : Byte)
  /-- DXYN DRW Vx, Vy, nibble (R211). -/
  | drw (x y : Reg) (n : Nat)
  /-- EX9E SKP Vx (R230). -/
  | skp (x : Reg)
  /-- EXA1 SKNP Vx (R231). -/
  | sknp (x : Reg)
  /-- FX07 LD Vx, DT (R233). -/
  | ldVxDt (x : Reg)
  /-- FX0A LD Vx, K (R234). -/
  | ldVxK (x : Reg)
  /-- FX15 LD DT, Vx (R235). -/
  | ldDtVx (x : Reg)
  /-- FX18 LD ST, Vx (R236). -/
  | ldStVx (x : Reg)
  /-- FX1E ADD I, Vx (R192). -/
  | addIVx (x : Reg)
  /-- FX29 LD F, Vx (R193). -/
  | ldFVx (x : Reg)
  /-- FX33 LD B, Vx (R194). -/
  | ldBVx (x : Reg)
  /-- FX55 LD [I], Vx (R195). -/
  | storeRegs (x : Reg)
  /-- FX65 LD Vx, [I] (R196). -/
  | loadRegs (x : Reg)
  deriving DecidableEq, Repr

end Sys2Proof
end

