-- ==== Sys2Proof/Decode.lean ====
section
/-! DEFINITION. The decoder, total on any bytes and rejecting by name, and after it the encoder
(30_encoding.md R90-R105). -/

namespace Sys2Proof

/-- Why bytes are no instruction: too few of them, or a decode-fault word, named by the family with the
hole (R100, R101). Log 21. -/
inductive DecodeFault where
  /-- Fewer than the two bytes of a word: `decode` on a short list; a fetch never gives one. -/
  | truncated
  /-- Family 0x0 with a low byte other than 0xE0, 0xEE (R95). -/
  | family0 (w : Word)
  /-- Family 0x8 with N in 0x8-0xD, 0xF (R96). -/
  | family8 (w : Word)
  /-- Family 0xE with a low byte other than 0x9E, 0xA1 (R97). -/
  | familyE (w : Word)
  /-- Family 0xF with a low byte outside the nine of R98. -/
  | familyF (w : Word)
  deriving DecidableEq, Repr

/-! ## The fields of a word (R91) -/

/-- The bytes of a word in fetch order are big-endian: the lower address is bits 15-8 (R65). -/
def wordOfBytes (hi lo : Byte) : Word := hi ++ lo

def highByte (w : Word) : Byte := w.extractLsb' 8 8

def lowByte (w : Word) : Byte := w.extractLsb' 0 8

/-- F, bits 15-12. -/
def fieldF (w : Word) : BitVec 4 := w.extractLsb' 12 4

/-- X, bits 11-8. -/
def fieldX (w : Word) : Reg := (w.extractLsb' 8 4).toFin

/-- Y, bits 7-4. -/
def fieldY (w : Word) : Reg := (w.extractLsb' 4 4).toFin

/-- N, bits 3-0. -/
def fieldN (w : Word) : BitVec 4 := w.extractLsb' 0 4

/-- NN, bits 7-0. -/
def fieldNN (w : Word) : Byte := w.extractLsb' 0 8

/-- NNN, bits 11-0. -/
def fieldNNN (w : Word) : Addr := w.extractLsb' 0 12

/-! ## The two-level decoder (R94) -/

/-- Family 0x0 dispatches on the low byte; bits 11-8 are not examined (R95). -/
def decodeFamily0 (w : Word) : Except DecodeFault Instr :=
  if fieldNN w = 0xE0#8 then .ok .cls
  else if fieldNN w = 0xEE#8 then .ok .ret
  else .error (.family0 w)

/-- Family 0x8 dispatches on N (R96). -/
def decodeFamily8 (w : Word) : Except DecodeFault Instr :=
  if fieldN w = 0x0#4 then .ok (.ldReg (fieldX w) (fieldY w))
  else if fieldN w = 0x1#4 then .ok (.orReg (fieldX w) (fieldY w))
  else if fieldN w = 0x2#4 then .ok (.andReg (fieldX w) (fieldY w))
  else if fieldN w = 0x3#4 then .ok (.xorReg (fieldX w) (fieldY w))
  else if fieldN w = 0x4#4 then .ok (.addReg (fieldX w) (fieldY w))
  else if fieldN w = 0x5#4 then .ok (.subReg (fieldX w) (fieldY w))
  else if fieldN w = 0x6#4 then .ok (.shr (fieldX w) (fieldY w))
  else if fieldN w = 0x7#4 then .ok (.subnReg (fieldX w) (fieldY w))
  else if fieldN w = 0xE#4 then .ok (.shl (fieldX w) (fieldY w))
  else .error (.family8 w)

/-- Family 0xE dispatches on the low byte (R97). -/
def decodeFamilyE (w : Word) : Except DecodeFault Instr :=
  if fieldNN w = 0x9E#8 then .ok (.skp (fieldX w))
  else if fieldNN w = 0xA1#8 then .ok (.sknp (fieldX w))
  else .error (.familyE w)

/-- Family 0xF dispatches on the low byte (R98). -/
def decodeFamilyF (w : Word) : Except DecodeFault Instr :=
  if fieldNN w = 0x07#8 then .ok (.ldVxDt (fieldX w))
  else if fieldNN w = 0x0A#8 then .ok (.ldVxK (fieldX w))
  else if fieldNN w = 0x15#8 then .ok (.ldDtVx (fieldX w))
  else if fieldNN w = 0x18#8 then .ok (.ldStVx (fieldX w))
  else if fieldNN w = 0x1E#8 then .ok (.addIVx (fieldX w))
  else if fieldNN w = 0x29#8 then .ok (.ldFVx (fieldX w))
  else if fieldNN w = 0x33#8 then .ok (.ldBVx (fieldX w))
  else if fieldNN w = 0x55#8 then .ok (.storeRegs (fieldX w))
  else if fieldNN w = 0x65#8 then .ok (.loadRegs (fieldX w))
  else .error (.familyF w)

/-- The instruction a 16-bit word stands for, or its decode fault (R94). The other twelve families hold one
instruction each; bits 3-0 of families 0x5 and 0x9 are not examined. -/
def decodeWord (w : Word) : Except DecodeFault Instr :=
  if fieldF w = 0x0#4 then decodeFamily0 w
  else if fieldF w = 0x1#4 then .ok (.jp (fieldNNN w))
  else if fieldF w = 0x2#4 then .ok (.call (fieldNNN w))
  else if fieldF w = 0x3#4 then .ok (.seByte (fieldX w) (fieldNN w))
  else if fieldF w = 0x4#4 then .ok (.sneByte (fieldX w) (fieldNN w))
  else if fieldF w = 0x5#4 then .ok (.seReg (fieldX w) (fieldY w))
  else if fieldF w = 0x6#4 then .ok (.ldByte (fieldX w) (fieldNN w))
  else if fieldF w = 0x7#4 then .ok (.addByte (fieldX w) (fieldNN w))
  else if fieldF w = 0x8#4 then decodeFamily8 w
  else if fieldF w = 0x9#4 then .ok (.sneReg (fieldX w) (fieldY w))
  else if fieldF w = 0xA#4 then .ok (.ldI (fieldNNN w))
  else if fieldF w = 0xB#4 then .ok (.jpV0 (fieldNNN w))
  else if fieldF w = 0xC#4 then .ok (.rnd (fieldX w) (fieldNN w))
  else if fieldF w = 0xD#4 then .ok (.drw (fieldX w) (fieldY w) (fieldN w).toNat)
  else if fieldF w = 0xE#4 then decodeFamilyE w
  else decodeFamilyF w  -- 0xF, the one family left

/-- Decode the instruction at the front of a byte string and give the rest: always two bytes (R90). -/
def decode : List Byte → Except DecodeFault (Instr × List Byte)
  | hi :: lo :: rest => (decodeWord (wordOfBytes hi lo)).map (·, rest)
  | [_] => .error .truncated
  | [] => .error .truncated

/-! ## The host's reading of an opcode-table row -/

/-- The instruction word of a table row's bits: its bit 0 is the word's bit 0, and bits from `nbits` up
are 0. -/
def tableWord (nbits w : Nat) : Word := BitVec.ofNat 16 (w % 2 ^ nbits)

/-- What the decoder reads from the bytes of that word as RAM holds them. -/
def decodeTableWord (nbits w : Nat) : Option Instr :=
  match decode [highByte (tableWord nbits w), lowByte (tableWord nbits w)] with
  | .ok (i, _) => some i
  | .error _ => none

/-! ## The encoder, written from the match and field columns of R92 and R99 -/

/-- The 4-bit field that names a register. -/
def regField (x : Reg) : BitVec 4 := BitVec.ofFin x

/-- Format A: family, NNN. -/
def formatA (f : BitVec 4) (nnn : Addr) : Word := f ++ nnn

/-- Formats XB and XS: family, X, low byte. -/
def formatXB (f : BitVec 4) (x : Reg) (nn : Byte) : Word := f ++ (regField x ++ nn)

/-- Formats XY and XYN: family, X, Y, low nibble. -/
def formatXYN (f : BitVec 4) (x y : Reg) (n : BitVec 4) : Word := f ++ (regField x ++ (regField y ++ n))

/-- The word of an instruction. Bits no decoder reads are written as 0 (R102, R105). -/
def encode : Instr → Word
  | .cls => 0x00E0#16
  | .ret => 0x00EE#16
  | .jp nnn => formatA 0x1#4 nnn
  | .call nnn => formatA 0x2#4 nnn
  | .seByte x nn => formatXB 0x3#4 x nn
  | .sneByte x nn => formatXB 0x4#4 x nn
  | .seReg x y => formatXYN 0x5#4 x y 0x0#4
  | .ldByte x nn => formatXB 0x6#4 x nn
  | .addByte x nn => formatXB 0x7#4 x nn
  | .ldReg x y => formatXYN 0x8#4 x y 0x0#4
  | .orReg x y => formatXYN 0x8#4 x y 0x1#4
  | .andReg x y => formatXYN 0x8#4 x y 0x2#4
  | .xorReg x y => formatXYN 0x8#4 x y 0x3#4
  | .addReg x y => formatXYN 0x8#4 x y 0x4#4
  | .subReg x y => formatXYN 0x8#4 x y 0x5#4
  | .shr x y => formatXYN 0x8#4 x y 0x6#4
  | .subnReg x y => formatXYN 0x8#4 x y 0x7#4
  | .shl x y => formatXYN 0x8#4 x y 0xE#4
  | .sneReg x y => formatXYN 0x9#4 x y 0x0#4
  | .ldI nnn => formatA 0xA#4 nnn
  | .jpV0 nnn => formatA 0xB#4 nnn
  | .rnd x nn => formatXB 0xC#4 x nn
  | .drw x y n => formatXYN 0xD#4 x y (BitVec.ofNat 4 n)
  | .skp x => formatXB 0xE#4 x 0x9E#8
  | .sknp x => formatXB 0xE#4 x 0xA1#8
  | .ldVxDt x => formatXB 0xF#4 x 0x07#8
  | .ldVxK x => formatXB 0xF#4 x 0x0A#8
  | .ldDtVx x => formatXB 0xF#4 x 0x15#8
  | .ldStVx x => formatXB 0xF#4 x 0x18#8
  | .addIVx x => formatXB 0xF#4 x 0x1E#8
  | .ldFVx x => formatXB 0xF#4 x 0x29#8
  | .ldBVx x => formatXB 0xF#4 x 0x33#8
  | .storeRegs x => formatXB 0xF#4 x 0x55#8
  | .loadRegs x => formatXB 0xF#4 x 0x65#8

/-- The two bytes of an instruction as RAM holds them, lower address first (R65, R90). -/
def encodeBytes (i : Instr) : List Byte := [highByte (encode i), lowByte (encode i)]

/-! ## The opcode map as the spec prints it (R99) -/

/-- A row of the opcode map: `w &&& mask = pattern` selects it, and `build` takes the operands from the
fields of the word (R91, R92). -/
structure MapRow where
  mask : Word
  pattern : Word
  build : Word → Instr

/-- The 34 rows of R99. The decoder above does not use it: the statements hold the two against each other. -/
def opcodeMap : List MapRow :=
  [⟨0xF0FF#16, 0x00E0#16, fun _ => .cls⟩,
   ⟨0xF0FF#16, 0x00EE#16, fun _ => .ret⟩,
   ⟨0xF000#16, 0x1000#16, fun w => .jp (fieldNNN w)⟩,
   ⟨0xF000#16, 0x2000#16, fun w => .call (fieldNNN w)⟩,
   ⟨0xF000#16, 0x3000#16, fun w => .seByte (fieldX w) (fieldNN w)⟩,
   ⟨0xF000#16, 0x4000#16, fun w => .sneByte (fieldX w) (fieldNN w)⟩,
   ⟨0xF000#16, 0x5000#16, fun w => .seReg (fieldX w) (fieldY w)⟩,
   ⟨0xF000#16, 0x6000#16, fun w => .ldByte (fieldX w) (fieldNN w)⟩,
   ⟨0xF000#16, 0x7000#16, fun w => .addByte (fieldX w) (fieldNN w)⟩] ++
  [⟨0xF00F#16, 0x8000#16, fun w => .ldReg (fieldX w) (fieldY w)⟩,
   ⟨0xF00F#16, 0x8001#16, fun w => .orReg (fieldX w) (fieldY w)⟩,
   ⟨0xF00F#16, 0x8002#16, fun w => .andReg (fieldX w) (fieldY w)⟩,
   ⟨0xF00F#16, 0x8003#16, fun w => .xorReg (fieldX w) (fieldY w)⟩,
   ⟨0xF00F#16, 0x8004#16, fun w => .addReg (fieldX w) (fieldY w)⟩,
   ⟨0xF00F#16, 0x8005#16, fun w => .subReg (fieldX w) (fieldY w)⟩,
   ⟨0xF00F#16, 0x8006#16, fun w => .shr (fieldX w) (fieldY w)⟩,
   ⟨0xF00F#16, 0x8007#16, fun w => .subnReg (fieldX w) (fieldY w)⟩,
   ⟨0xF00F#16, 0x800E#16, fun w => .shl (fieldX w) (fieldY w)⟩] ++
  [⟨0xF000#16, 0x9000#16, fun w => .sneReg (fieldX w) (fieldY w)⟩,
   ⟨0xF000#16, 0xA000#16, fun w => .ldI (fieldNNN w)⟩,
   ⟨0xF000#16, 0xB000#16, fun w => .jpV0 (fieldNNN w)⟩,
   ⟨0xF000#16, 0xC000#16, fun w => .rnd (fieldX w) (fieldNN w)⟩,
   ⟨0xF000#16, 0xD000#16, fun w => .drw (fieldX w) (fieldY w) (fieldN w).toNat⟩] ++
  [⟨0xF0FF#16, 0xE09E#16, fun w => .skp (fieldX w)⟩,
   ⟨0xF0FF#16, 0xE0A1#16, fun w => .sknp (fieldX w)⟩,
   ⟨0xF0FF#16, 0xF007#16, fun w => .ldVxDt (fieldX w)⟩,
   ⟨0xF0FF#16, 0xF00A#16, fun w => .ldVxK (fieldX w)⟩,
   ⟨0xF0FF#16, 0xF015#16, fun w => .ldDtVx (fieldX w)⟩,
   ⟨0xF0FF#16, 0xF018#16, fun w => .ldStVx (fieldX w)⟩,
   ⟨0xF0FF#16, 0xF01E#16, fun w => .addIVx (fieldX w)⟩,
   ⟨0xF0FF#16, 0xF029#16, fun w => .ldFVx (fieldX w)⟩,
   ⟨0xF0FF#16, 0xF033#16, fun w => .ldBVx (fieldX w)⟩,
   ⟨0xF0FF#16, 0xF055#16, fun w => .storeRegs (fieldX w)⟩,
   ⟨0xF0FF#16, 0xF065#16, fun w => .loadRegs (fieldX w)⟩]

/-- The bits of an instruction's word that its decoding reads; the others are those of R102, but for Y of 8XY6 and
8XYE, which the term keeps. -/
def readMask : Instr → Word
  | .cls | .ret => 0xF0FF#16
  | .seReg _ _ | .sneReg _ _ => 0xFFF0#16
  | .jp _ | .call _ | .ldI _ | .jpV0 _ => 0xFFFF#16
  | .seByte _ _ | .sneByte _ _ | .ldByte _ _ | .addByte _ _ | .rnd _ _ => 0xFFFF#16
  | .ldReg _ _ | .orReg _ _ | .andReg _ _ | .xorReg _ _ => 0xFFFF#16
  | .addReg _ _ | .subReg _ _ | .shr _ _ | .subnReg _ _ | .shl _ _ => 0xFFFF#16
  | .drw _ _ _ => 0xFFFF#16
  | .skp _ | .sknp _ | .ldVxDt _ | .ldVxK _ | .ldDtVx _ | .ldStVx _ => 0xFFFF#16
  | .addIVx _ | .ldFVx _ | .ldBVx _ | .storeRegs _ | .loadRegs _ => 0xFFFF#16

end Sys2Proof
end

