-- ==== Sys2Proof/Config.lean ====
section
/-! DEFINITION. The implementation parameters (00_scope.md R6, R7) and the one free value. -/

namespace Sys2Proof

/-- What a decode fault does after it is recorded (R7 `DECODE_FAULT_POLICY`, R252). -/
inductive DecodeFaultPolicy where
  /-- Go on at pc + 2. -/
  | skip
  /-- Halt. -/
  | fatal
  deriving DecidableEq, Repr

namespace Config

/-- `MEM_SIZE`: RAM is the addresses 0x000 to 0xFFF (R6). -/
abbrev memSize : Nat := 0x1000

/-- `LOAD_ADDR`: where a program image goes (R6, R283). -/
abbrev loadAddr : Nat := 0x200

/-- The longest image a load accepts: 4096 - 0x200 bytes (R284). -/
abbrev loadCapacity : Nat := 3584

/-- `START_ADDRESS`: the value this hardware takes (R7, R282). Log 3. -/
abbrev startAddress : Word := 0x200#16

/-- The policy this hardware takes (R7, R252). Log 4. -/
abbrev decodeFaultPolicy : DecodeFaultPolicy := .skip

/-- The value of the parameter `FONT_ROM` that this hardware takes: 16 glyphs of 5 rows, glyph d at bytes 5*d to
5*d + 4 (R7, R45). `State.new` takes the parameter. PRESUMED: the spec takes these bytes from general knowledge (D15);
unsafe for claims about a drawn glyph's pixels. Log 2. -/
def fontRom : Vector Byte 80 :=
  ⟨⟨[0xF0#8, 0x90#8, 0x90#8, 0x90#8, 0xF0#8] ++ [0x20#8, 0x60#8, 0x20#8, 0x20#8, 0x70#8] ++
  [0xF0#8, 0x10#8, 0xF0#8, 0x80#8, 0xF0#8] ++ [0xF0#8, 0x10#8, 0xF0#8, 0x10#8, 0xF0#8] ++
  [0x90#8, 0x90#8, 0xF0#8, 0x10#8, 0x10#8] ++ [0xF0#8, 0x80#8, 0xF0#8, 0x10#8, 0xF0#8] ++
  [0xF0#8, 0x80#8, 0xF0#8, 0x90#8, 0xF0#8] ++ [0xF0#8, 0x10#8, 0x20#8, 0x40#8, 0x40#8] ++
  [0xF0#8, 0x90#8, 0xF0#8, 0x90#8, 0xF0#8] ++ [0xF0#8, 0x90#8, 0xF0#8, 0x10#8, 0xF0#8] ++
  [0xF0#8, 0x90#8, 0xF0#8, 0x90#8, 0x90#8] ++ [0xE0#8, 0x90#8, 0xE0#8, 0x90#8, 0xE0#8] ++
  [0xF0#8, 0x80#8, 0x80#8, 0x80#8, 0xF0#8] ++ [0xE0#8, 0x90#8, 0x90#8, 0x90#8, 0xE0#8] ++
  [0xF0#8, 0x80#8, 0xF0#8, 0x80#8, 0xF0#8] ++ [0xF0#8, 0x80#8, 0xF0#8, 0x80#8, 0x80#8]⟩, rfl⟩

/-- `rand8()`: the byte the k-th executed CXNN takes from outside the machine. Any byte, with no
distribution, seed or sequence (R172, D18). A free value: it has no body. Log 6. -/
opaque rand8 (k : Nat) : Byte

end Config

end Sys2Proof
end

