-- ==== Sys2Proof/Machine/Memory.lean ====
section
/-! DEFINITION. RAM: its form, its one-byte primitives, runs of bytes, and the range check (20_memory.md). -/

namespace Sys2Proof.Machine

/-- RAM as the list of the cells that differ from `Memory.unlisted`, addresses strictly rising. Log 1. -/
abbrev Memory := List Host.Cell

/-- What an unlisted address reads as: the 0x00 that reset puts in every byte of RAM before it copies FONT_ROM
(R280). Log 1. -/
def Memory.unlisted : Byte := 0x00#8

/-- `RAM[a]`. An address above 0xFFF is no RAM byte; every meaning checks the range first (`firstBad`), and
`read?` is the checked primitive. -/
def Memory.byte : Memory → Nat → Byte
  | [], _ => Memory.unlisted
  | (k, b) :: m, a => if a = k then b else Memory.byte m a

/-- One listed cell, or none when the byte equals what the unlisted address reads as. -/
def Memory.cell (a : Nat) (b : Byte) : Memory := if b = Memory.unlisted then [] else [(a, b)]

/-- `RAM[a] <- b`, keeping the canonical form. -/
def Memory.write : Memory → Nat → Byte → Memory
  | [], a, b => Memory.cell a b
  | (k, c) :: m, a, b =>
    if a < k then Memory.cell a b ++ (k, c) :: m
    else if a = k then Memory.cell a b ++ m
    else (k, c) :: Memory.write m a b

/-- Bytes to increasing addresses from `a` (R65). -/
def Memory.writeBytes : Memory → Nat → List Byte → Memory
  | m, _, [] => m
  | m, a, b :: bs => Memory.writeBytes (Memory.write m a b) (a + 1) bs

/-- RAM that holds the bytes of the list at `a`, `a + 1`, ... and nothing else: what reset makes of FONT_ROM (R280). -/
def Memory.ofBytes : Nat → List Byte → Memory
  | _, [] => []
  | a, b :: bs => Memory.cell a b ++ Memory.ofBytes (a + 1) bs

/-- The `n` bytes at increasing addresses from `a` (R65). -/
def Memory.readBytes (m : Memory) (a n : Nat) : List Byte := (List.range n).map fun k => m.byte (a + k)

/-- The canonical form: addresses strictly rising, each a RAM address, no cell equal to what an unlisted
address reads as. -/
abbrev Memory.wf (m : Memory) : Prop :=
  m.Pairwise (fun c d => c.1 < d.1) ∧ ∀ c ∈ m, c.1 < Config.memSize ∧ c.2 ≠ Memory.unlisted

/-- `MemRead(addr, 1)`: none is the addressing fault (R62, R63). -/
def Memory.read? (m : Memory) (a : Nat) : Option Byte := if a > 0xFFF then none else some (m.byte a)

/-- `MemWrite(addr, 1, v)`: none is the addressing fault (R62, R63). -/
def Memory.write? (m : Memory) (a : Nat) (b : Byte) : Option Memory :=
  if a > 0xFFF then none else some (m.write a b)

/-- The lowest address outside RAM among the `n` addresses from `a`, checked before any access (R64). With
the first or a later byte outside, it is `max(a, 0x1000)` (R251). -/
def firstBad (a n : Nat) : Option Nat := if 0 < n ∧ a + n > Config.memSize then some (max a Config.memSize) else none

end Sys2Proof.Machine
end

