-- ==== Sys2Proof/Machine/State.lean ====
section
/-! DEFINITION. The state of chip8_interpreter (10_state.md R20, R37), the reasons a step or a host transaction
can stop, and the state after reset (70_reset_and_hazards.md R280). -/

namespace Sys2Proof.Machine

/-- 32 rows of 64 one-bit pixels (R34); `fb[y][x]` is row y, column x. -/
abbrev Framebuffer := Vector (Vector Bool 64) 32

/-- The causes a fault record can name (R251). The reserved codes 8-15 are never written, so no constructor
stands for them. Log 23. -/
inductive FaultCause where
  | none | decode | fetchRange | readRange | writeRange | stackOverflow | stackUnderflow | keyRange
  deriving DecidableEq, Repr

/-- The outcome a step returns to the host (R126). -/
inductive StepOutcome where
  | ok | decodeSkipped | fault | halted
  deriving DecidableEq, Repr

/-- Every piece of state the spec gives the machine (R20), the outcome port, and the draw counter. -/
structure State where
  /-- RAM, 0x000-0xFFF (R60). -/
  ram : Memory
  /-- V0 to VF (R23). -/
  v : Vector Byte 16
  /-- I, the index register (R27). -/
  i : Word
  /-- The address of the instruction to execute (R28). -/
  pc : Word
  /-- The number of occupied stack slots, 0 to 16 (R30). -/
  sp : Fin 17
  /-- The return-address slots (R30). -/
  stack : Vector Word 16
  /-- The current-instruction word (R32). -/
  opcode : Word
  /-- The delay timer (R33). -/
  dt : Byte
  /-- The sound timer (R33). -/
  st : Byte
  /-- The framebuffer (R34). -/
  fb : Framebuffer
  /-- The frame-ready flag (R35). -/
  frameReady : Bool
  /-- The keyboard latch, true when pressed (R36). -/
  keys : Vector Bool 16
  /-- Set by a fatal fault, cleared only by reset (R37). -/
  halted : Bool
  /-- `fault_cause` (R37). -/
  faultCause : FaultCause
  /-- `fault_pc` (R37). -/
  faultPc : Word
  /-- `fault_word` (R37). -/
  faultWord : Word
  /-- `fault_addr` (R37). -/
  faultAddr : Word
  /-- The `step_outcome` port as the last step drove it (R126, R290). DESIGN CHOICE, log 5. -/
  stepOutcome : StepOutcome
  /-- The MODEL's own: how many bytes CXNN has drawn. DESIGN CHOICE, log 6. -/
  draws : Nat
  deriving DecidableEq, Repr

/-- Why the machine stops. No step stops: every fault of the spec is a described effect and is a next
state (R252, R253). -/
inductive Fault where
  /-- Raised by the host transaction `loadByte` alone, for a `load_offset` above 0xDFF: the byte would lie
  outside RAM, and R290 forbids the offset. Safe. Log 17. -/
  | loadOffsetOutOfRange
  deriving DecidableEq, Repr

/-- Why a request is refused. -/
inductive Refusal where
  /-- Raised by an arm of `exec` with no meaning yet; every arm has one, so nothing raises it. Safe. -/
  | notModelled (mnemonic : String)
  /-- Raised by the host transaction `load` alone, for an image over 3584 bytes, which the spec refuses whole
  (R284). Safe. Log 17. -/
  | imageTooLong
  deriving DecidableEq, Repr

/-- The construction `new(start_address)` with the parameters START_ADDRESS and FONT_ROM (R7, R280): RAM zeroed, then
the font copied to 0x000-0x04F. The outcome port's value and the draw count are the model's. DESIGN CHOICE, logs 5
and 6. -/
def State.new (start : Word) (font : Vector Byte 80) : State where
  ram := Memory.ofBytes 0x000 font.toList
  v := Vector.replicate 16 0#8
  i := 0#16
  pc := start
  sp := 0
  stack := Vector.replicate 16 0#16
  opcode := 0#16
  dt := 0#8
  st := 0#8
  fb := Vector.replicate 32 (Vector.replicate 64 false)
  frameReady := false
  keys := Vector.replicate 16 false
  halted := false
  faultCause := .none
  faultPc := 0#16
  faultWord := 0#16
  faultAddr := 0#16
  stepOutcome := .ok
  draws := 0

/-- The machine right after reset, with the `START_ADDRESS` and the `FONT_ROM` this hardware takes (R7, R281). -/
def State.reset : State := State.new Config.startAddress Config.fontRom

end Sys2Proof.Machine
end

