-- ==== Sys2Proof/Machine/Ops.lean ====
section
/-! DEFINITION. The operations the meanings share, beside those of RAM: registers, pc, stack,
framebuffer, timers, the fetch, and taking a fault. -/

namespace Sys2Proof.Machine

/-! ## Registers and pc (10_state.md R23-R29) -/

/-- `V[x]`. -/
def State.reg (s : State) (x : Reg) : Byte := s.v[x]

/-- `V[x] <- b`. -/
def State.setReg (s : State) (x : Reg) (b : Byte) : State := { s with v := s.v.set x b }

/-- All sixteen registers at once. -/
def State.setRegs (s : State) (v : Vector Byte 16) : State := { s with v := v }

/-- `V[x] <- r`, then `V[0xF] <- flag`: the flag is written last (R160). Log 8. -/
def State.setRegFlag (s : State) (x : Reg) (r flag : Byte) : State := (s.setReg x r).setReg vF flag

/-- `I <- w`. -/
def State.setIndex (s : State) (w : Word) : State := { s with i := w }

/-- `pc <- w`, modulo 2^16 (R29). -/
def State.jump (s : State) (w : Word) : State := { s with pc := w }

/-- `pc <- pc + 2` (R12). -/
def State.advance (s : State) : State := s.jump (s.pc + 2#16)

/-- `pc <- pc + 4` when the condition holds, else `pc <- pc + 2` (R12). -/
def State.skipIf (s : State) (c : Bool) : State := s.jump (if c then s.pc + 4#16 else s.pc + 2#16)

/-- RAM replaced by the result of a write. -/
def State.setRam (s : State) (m : Memory) : State := { s with ram := m }

/-- The draw counter moves on: one byte has been taken from the random source. Log 6. -/
def State.nextDraw (s : State) : State := { s with draws := s.draws + 1 }

/-- The fetched word is latched (R32). -/
def State.latch (s : State) (w : Word) : State := { s with opcode := w }

/-! ## The return stack (10_state.md R30, R31) -/

/-- `stack[sp] <- pc; sp <- sp + 1`, none when sp = 16. -/
def State.pushPc (s : State) : Option State :=
  if h : s.sp.val < 16 then
    some { s with stack := s.stack.set s.sp.val s.pc, sp := ⟨s.sp.val + 1, Nat.add_lt_add_right h 1⟩ }
  else none

/-- `stack[sp - 1]` with `sp <- sp - 1`, none when sp = 0. The slot keeps its value. -/
def State.pop (s : State) : Option (Word × State) :=
  if s.sp.val = 0 then none
  else some (s.stack[s.sp.val - 1], { s with sp := ⟨s.sp.val - 1, Nat.lt_of_le_of_lt (Nat.sub_le _ _) s.sp.isLt⟩ })

/-! ## Timers (10_state.md R33, 40_step_cycle.md R125) -/

/-- `DT <- b`. -/
def State.setDt (s : State) (b : Byte) : State := { s with dt := b }

/-- `ST <- b`. -/
def State.setSt (s : State) (b : Byte) : State := { s with st := b }

/-- One less, and not below 0. -/
def countDown (t : Byte) : Byte := if t = 0#8 then t else t - 1#8

/-- `Tick()` (R125). -/
def State.tick (s : State) : State := { s with dt := countDown s.dt, st := countDown s.st }

/-! ## Framebuffer (10_state.md R34, R35, 44_display.md R211-R214) -/

/-- `FB[y][x]`. -/
def pixel (fb : Framebuffer) (y : Fin 32) (x : Fin 64) : Bool := fb[y][x]

/-- `FB[y][x] <- FB[y][x] ^ 1`. -/
def flipPixel (fb : Framebuffer) (y : Fin 32) (x : Fin 64) : Framebuffer :=
  fb.set y (fb[y].set x (!pixel fb y x))

/-- Every pixel 0 (R210). -/
def clearScreen : Framebuffer := Vector.replicate 32 (Vector.replicate 64 false)

/-- The row of the framebuffer that sprite row `r` falls on (R212). -/
def spriteRow (y0 r : Nat) : Fin 32 := Fin.ofNat 32 (y0 + r)

/-- The column of the framebuffer that sprite column `c` falls on (R212). -/
def spriteCol (x0 c : Nat) : Fin 64 := Fin.ofNat 64 (x0 + c)

/-- Bit 7 of a sprite byte is column offset 0 (R213). Log 16. -/
def spriteBit (b : Byte) (c : Nat) : Bool := b.getLsbD (7 - c)

/-- A framebuffer and the collision seen so far. -/
abbrev Canvas := Framebuffer × Bool

/-- One sprite bit: a 1 flips its pixel and collides when the pixel was 1; a 0 does nothing (R214). -/
def drawBit (py : Fin 32) (x0 : Nat) (b : Byte) (cv : Canvas) (c : Nat) : Canvas :=
  if spriteBit b c then (flipPixel cv.1 py (spriteCol x0 c), cv.2 || pixel cv.1 py (spriteCol x0 c)) else cv

/-- The eight bits of one sprite row. -/
def drawRow (py : Fin 32) (x0 : Nat) (b : Byte) (cv : Canvas) : Canvas :=
  (List.range 8).foldl (drawBit py x0 b) cv

/-- The sprite's rows in order, the first at row offset `r`. -/
def drawRows (x0 y0 : Nat) : Nat → List Byte → Canvas → Canvas
  | _, [], cv => cv
  | r, b :: bs, cv => drawRows x0 y0 (r + 1) bs (drawRow (spriteRow y0 r) x0 b cv)

/-- FB replaced by the result of a clear or a draw. -/
def State.setFb (s : State) (fb : Framebuffer) : State := { s with fb := fb }

/-- `frame_ready <- 1` (R215). -/
def State.markFrame (s : State) : State := { s with frameReady := true }

/-! ## Taking a fault (60_exceptions.md R250-R259) -/

/-- The fault record of a fault (R251). -/
def State.recordFault (s : State) (cause : FaultCause) (pc word addr : Word) : State :=
  { s with faultCause := cause, faultPc := pc, faultWord := word, faultAddr := addr }

/-- `halted <- 1`. -/
def State.halt (s : State) : State := { s with halted := true }

/-- `FatalFault` (R128, R253): halt and record, everything else as it was. -/
def State.fatalFault (s : State) (cause : FaultCause) (word addr : Word) : State :=
  (s.recordFault cause s.pc word addr).halt

/-- An addressing fault in the execute phase: `fault_pc` is the pc of this instruction and `fault_word` the
word latched at its fetch (R251, R253). Log 20. -/
def raise (cause : FaultCause) (addr : Nat) (s : State) : Host.Outcome State Fault Refusal :=
  .next (s.fatalFault cause s.opcode (BitVec.ofNat 16 addr))

/-- The outcome code goes to the host (R126). Log 5. -/
def State.report (s : State) (o : StepOutcome) : State := { s with stepOutcome := o }

/-- A decode fault of the word `w`: the record is written and the policy decides (R252). -/
def State.decodeFault (s : State) (policy : DecodeFaultPolicy) (w : Word) : State :=
  match policy with
  | .skip => ((s.recordFault .decode s.pc w 0#16).advance.tick).report .decodeSkipped
  | .fatal => (s.recordFault .decode s.pc w 0#16).halt.report .fault

/-! ## The fetch (40_step_cycle.md R120, R121) -/

/-- The word at pc, or the lowest address outside RAM. -/
def State.fetch (s : State) : Except Nat Word :=
  match firstBad s.pc.toNat 2 with
  | some a => .error a
  | none => .ok (wordOfBytes (s.ram.byte s.pc.toNat) (s.ram.byte (s.pc.toNat + 1)))

/-- A word placed where the next step fetches; a pc whose two bytes are not in RAM has no such place. Log 19. -/
def State.placeWord (s : State) (w : Word) : State :=
  match firstBad s.pc.toNat 2 with
  | some _ => s
  | none => { s with ram := s.ram.writeBytes s.pc.toNat [highByte w, lowByte w], halted := false }

/-! ## The numeric codes (R126, R251). Log 23 -/

/-- The code in `fault_cause`. -/
def FaultCause.code : FaultCause → BitVec 4
  | .none => 0#4
  | .decode => 1#4
  | .fetchRange => 2#4
  | .readRange => 3#4
  | .writeRange => 4#4
  | .stackOverflow => 5#4
  | .stackUnderflow => 6#4
  | .keyRange => 7#4

/-- The code on `step_outcome`. -/
def StepOutcome.code : StepOutcome → BitVec 2
  | .ok => 0#2
  | .decodeSkipped => 1#2
  | .fault => 2#2
  | .halted => 3#2

end Sys2Proof.Machine
end

