-- ==== Sys2Proof/Machine/Operands.lean ====
section
/-! DEFINITION. The operand forms: register values, immediates, I-relative addresses, key indices, BCD digits and
the random byte (30_encoding.md R93, 43_index_memory.md R191). -/

namespace Sys2Proof.Machine

/-- NNN zero-extended to 16 bits (R93). -/
def addrWord (nnn : Addr) : Word := nnn.zeroExtend 16

/-- The computed target of BNNN: NNN + V0 in 16 bits, no 12-bit mask (R147). Log 14. -/
def State.indexedTarget (s : State) (nnn : Addr) : Word := addrWord nnn + (s.reg 0).zeroExtend 16

/-- `I + V[X]` before truncation (R192). -/
def State.indexSum (s : State) (x : Reg) : Nat := s.i.toNat + (s.reg x).toNat

/-- The font address `V[X] * 5` (R193). -/
def State.glyphAddr (s : State) (x : Reg) : Word := BitVec.ofNat 16 ((s.reg x).toNat * 5)

/-- The lowest bad address of a transfer of `n` bytes at I, I + 1, ... (R64, R191). -/
def State.transferBad (s : State) (n : Nat) : Option Nat := firstBad s.i.toNat n

/-- V0 to V[X] inclusive, in order (R195). -/
def State.regsUpTo (s : State) (x : Reg) : List Byte := s.v.toList.take (x.val + 1)

/-- The registers after V0 to V[X] are loaded from I, I + 1, ... (R196). -/
def State.loadedRegs (s : State) (x : Reg) : Vector Byte 16 :=
  Vector.ofFn fun k => if k ≤ x then s.ram.byte (s.i.toNat + k.val) else s.reg k

/-- The hundreds, tens and units digits of a byte (R194). -/
def bcdDigits (b : Byte) : List Byte :=
  [BitVec.ofNat 8 (b.toNat / 100), BitVec.ofNat 8 (b.toNat / 10 % 10), BitVec.ofNat 8 (b.toNat % 10)]

/-- `Key(k)` for a key index, none above 0xF (R232). Log 11. -/
def State.key? (s : State) (k : Nat) : Option Bool := if h : k < 16 then some s.keys[k] else none

/-- The least pressed key at or above `k`, among the next `fuel` (R234). -/
def State.leastKeyFrom (s : State) : Nat → Nat → Option Nat
  | 0, _ => none
  | fuel + 1, k => if s.key? k = some true then some k else s.leastKeyFrom fuel (k + 1)

/-- The least pressed key (R234). Log 12. -/
def State.leastKey (s : State) : Option Nat := s.leastKeyFrom 16 0

/-- `rand8()` for this step: the free value at the current draw (R172). Log 6. -/
def State.randomByte (s : State) : Byte := Config.rand8 s.draws

end Sys2Proof.Machine
end

