-- ==== Sys2Proof/Machine/Flags.lean ====
section
/-! DEFINITION. The values written to VF, each from the operands as they were before the instruction
(42_register_alu.md R160, 43_index_memory.md R192, 44_display.md R214). -/

namespace Sys2Proof.Machine

/-- 1 or 0 in an 8-bit register. -/
def flagByte (c : Bool) : Byte := if c then 1#8 else 0#8

/-- 8XY4: 1 when vy > 0xFF - vx (R167). -/
def carryFlag (vx vy : Byte) : Byte := flagByte (decide (vy.toNat > 0xFF - vx.toNat))

/-- 8XY5 (a = vx, b = vy) and 8XY7 (a = vy, b = vx): 0 when b > a, a borrow, else 1 (R168, R170). -/
def notBorrowFlag (a b : Byte) : Byte := flagByte (!decide (b.toNat > a.toNat))

/-- 8XY6: the bit shifted out, old bit 0 (R169). -/
def lsbFlag (vx : Byte) : Byte := vx &&& 1#8

/-- 8XYE: the bit shifted out, old bit 7 (R171). -/
def msbFlag (vx : Byte) : Byte := vx >>> 7

/-- FX1E: 1 when the untruncated sum exceeds 0xFFF (R192). Log 13. -/
def indexFlag (sum : Nat) : Byte := flagByte (decide (sum > 0xFFF))

/-- DXYN: the collision flag (R214). -/
def collisionFlag (hit : Bool) : Byte := flagByte hit

end Sys2Proof.Machine
end

