-- ==== Sys2Proof/Machine/Display.lean ====
section
/-! DEFINITION. The display instructions (44_display.md). -/

namespace Sys2Proof.Machine

/-- 00E0: frame_ready is not changed (R210). -/
def execCls (s : State) : Host.Outcome State Fault Refusal := .next (s.setFb clearScreen).advance

/-- The sprite of DXYN drawn from I at (V[X], V[Y]): the framebuffer after, and the collision (R211). -/
def State.drawSprite (s : State) (x y : Reg) (n : Nat) : Canvas :=
  drawRows (s.reg x).toNat (s.reg y).toNat 0 (s.ram.readBytes s.i.toNat n) (s.fb, false)

/-- DXYN: the coordinates are read before VF is written; N = 0 reads no memory (R211, R215). -/
def execDrw (x y : Reg) (n : Nat) (s : State) : Host.Outcome State Fault Refusal :=
  match s.transferBad n with
  | some a => raise .readRange a s
  | none =>
    .next (((s.setFb (s.drawSprite x y n).1).setReg vF (collisionFlag (s.drawSprite x y n).2)).markFrame).advance

end Sys2Proof.Machine
end

