-- ==== Sys2Proof/Machine/IndexMemory.lean ====
section
/-! DEFINITION. The index register and memory transfers (43_index_memory.md). I never changes in a transfer
(R191). -/

namespace Sys2Proof.Machine

/-- ANNN (R190). -/
def execLdI (nnn : Addr) (s : State) : Host.Outcome State Fault Refusal :=
  .next (s.setIndex (addrWord nnn)).advance

/-- FX1E (R192). -/
def execAddIVx (x : Reg) (s : State) : Host.Outcome State Fault Refusal :=
  .next ((s.setIndex (BitVec.ofNat 16 (s.indexSum x))).setReg vF (indexFlag (s.indexSum x))).advance

/-- FX29 (R193). -/
def execLdFVx (x : Reg) (s : State) : Host.Outcome State Fault Refusal :=
  .next (s.setIndex (s.glyphAddr x)).advance

/-- FX33 (R194). -/
def execLdBVx (x : Reg) (s : State) : Host.Outcome State Fault Refusal :=
  match s.transferBad 3 with
  | some a => raise .writeRange a s
  | none => .next (s.setRam (s.ram.writeBytes s.i.toNat (bcdDigits (s.reg x)))).advance

/-- FX55 (R195). -/
def execStoreRegs (x : Reg) (s : State) : Host.Outcome State Fault Refusal :=
  match s.transferBad (x.val + 1) with
  | some a => raise .writeRange a s
  | none => .next (s.setRam (s.ram.writeBytes s.i.toNat (s.regsUpTo x))).advance

/-- FX65 (R196). -/
def execLoadRegs (x : Reg) (s : State) : Host.Outcome State Fault Refusal :=
  match s.transferBad (x.val + 1) with
  | some a => raise .readRange a s
  | none => .next (s.setRegs (s.loadedRegs x)).advance

end Sys2Proof.Machine
end

