-- ==== Sys2Proof/Machine/InputTimers.lean ====
section
/-! DEFINITION. Keyboard input and timer transfers (45_input_timers.md). -/

namespace Sys2Proof.Machine

/-- EX9E (R230, R232). -/
def execSkp (x : Reg) (s : State) : Host.Outcome State Fault Refusal :=
  match s.key? (s.reg x).toNat with
  | none => raise .keyRange (s.reg x).toNat s
  | some down => .next (s.skipIf down)

/-- EXA1 (R231, R232). -/
def execSknp (x : Reg) (s : State) : Host.Outcome State Fault Refusal :=
  match s.key? (s.reg x).toNat with
  | none => raise .keyRange (s.reg x).toNat s
  | some down => .next (s.skipIf (!down))

/-- FX07: DT before this step's tick (R233). -/
def execLdVxDt (x : Reg) (s : State) : Host.Outcome State Fault Refusal :=
  .next (s.setReg x s.dt).advance

/-- FX0A: with no key pressed the instruction completes and pc stays (R234). Log 12. -/
def execLdVxK (x : Reg) (s : State) : Host.Outcome State Fault Refusal :=
  match s.leastKey with
  | some k => .next (s.setReg x (BitVec.ofNat 8 k)).advance
  | none => .next s

/-- FX15 (R235). -/
def execLdDtVx (x : Reg) (s : State) : Host.Outcome State Fault Refusal :=
  .next (s.setDt (s.reg x)).advance

/-- FX18 (R236). -/
def execLdStVx (x : Reg) (s : State) : Host.Outcome State Fault Refusal :=
  .next (s.setSt (s.reg x)).advance

end Sys2Proof.Machine
end

