-- ==== Sys2Proof/Machine/Cycle.lean ====
section
/-! DEFINITION. The step cycle: fetch, decode, execute, tick (40_step_cycle.md R120-R128), with the decode-fault policy
as its parameter. -/

namespace Sys2Proof.Machine

/-- After the execute phase: a fatal fault ends the step with no tick; a completed instruction ticks the
timers (R123, R125). -/
def finish : Host.Outcome State Fault Refusal → Host.Outcome State Fault Refusal
  | .next t => .next (if t.halted then t.report .fault else t.tick.report .ok)
  | .fault f => .fault f
  | .refused r => .refused r

/-- Decode and execute the latched word (R122, R123). -/
def runWord (policy : DecodeFaultPolicy) (w : Word) (s : State) : Host.Outcome State Fault Refusal :=
  match decodeWord w with
  | .error _ => .next (s.decodeFault policy w)
  | .ok i => finish (exec i s)

/-- `Step()` (R128). -/
def stepWith (policy : DecodeFaultPolicy) (s : State) : Host.Outcome State Fault Refusal :=
  if s.halted then .next (s.report .halted)
  else match s.fetch with
    | .error a => .next ((s.fatalFault .fetchRange 0#16 (BitVec.ofNat 16 a)).report .fault)
    | .ok w => runWord policy w (s.latch w)

end Sys2Proof.Machine
end

