-- ==== Sys2Proof/Machine/Step.lean ====
section
/-! DEFINITION. One step of this hardware, and the host's placing of a word where it fetches. -/

namespace Sys2Proof.Machine

/-- `Step()` under the policy this hardware takes (R7, R128). -/
def step (s : State) : Host.Outcome State Fault Refusal := stepWith Config.decodeFaultPolicy s

/-- The word of an opcode-table row stored where `step` fetches its next instruction. Log 19. -/
def State.withFetchWord (s : State) (nbits w : Nat) : State := s.placeWord (tableWord nbits w)

end Sys2Proof.Machine
end

