-- ==== Sys2Proof/Machine/HostPort.lean ====
section
/-! DEFINITION. The host's transactions between steps (70_reset_and_hazards.md R280-R294). -/

namespace Sys2Proof.Machine

/-- The reset transaction on a machine that has run: every state element as constructed (R280). The draws go on, since
no reset makes the host repeat a byte on `rand_byte` (R172). Log 6. -/
def State.restart (start : Word) (font : Vector Byte 80) (s : State) : State :=
  { State.new start font with draws := s.draws }

/-- `load(bytes)`: the image goes to 0x200 and up, nothing else changes; an image over 3584 bytes is refused
whole (R283, R284). Log 17. -/
def State.load (bytes : List Byte) (s : State) : Host.Outcome State Fault Refusal :=
  if bytes.length ≤ Config.loadCapacity then .next (s.setRam (s.ram.writeBytes Config.loadAddr bytes))
  else .refused .imageTooLong

/-- One byte on the load port; `load_offset` is at most 0xDFF (R290). Log 17. -/
def State.loadByte (offset : BitVec 12) (b : Byte) (s : State) : Host.Outcome State Fault Refusal :=
  match s.ram.write? (Config.loadAddr + offset.toNat) b with
  | some m => .next (s.setRam m)
  | none => .fault .loadOffsetOutOfRange

/-- `key_down`: bit k is Key(k) (R290, R291). -/
def State.setKeys (down : BitVec 16) (s : State) : State :=
  { s with keys := Vector.ofFn fun k => down.getLsbD k.val }

/-- `frame_ready_clr` (R292). -/
def State.clearFrame (s : State) : State := { s with frameReady := false }

/-- The framebuffer read port: `fb_pixel` (R290). -/
def State.fbPixel (s : State) (row : BitVec 5) (col : BitVec 6) : Bool := pixel s.fb row.toFin col.toFin

/-- The RAM read port: `dbg_mem_data` (R290, R293). -/
def State.dbgMem (s : State) (a : BitVec 12) : Byte := s.ram.byte a.toNat

/-- What the host may send (R294). Its reads change nothing and are the functions above and the fields of
State; its byte on `rand_byte` is the free value `Config.rand8` (log 6). -/
inductive HostAction where
  /-- `rst` with the parameters START_ADDRESS and FONT_ROM (R280, R282, R290). -/
  | rst (start : Word) (font : Vector Byte 80)
  | load (bytes : List Byte)
  | loadByte (offset : BitVec 12) (b : Byte)
  | keyDown (down : BitVec 16)
  | frameReadyClr
  | stepReq
  deriving DecidableEq, Repr

/-- The machine after a host transaction: only `stepReq` advances it (R294). Log 18. -/
def State.host (s : State) : HostAction → Host.Outcome State Fault Refusal
  | .rst start font => .next (s.restart start font)
  | .load bytes => s.load bytes
  | .loadByte offset b => s.loadByte offset b
  | .keyDown down => .next (s.setKeys down)
  | .frameReadyClr => .next s.clearFrame
  | .stepReq => step s

end Sys2Proof.Machine
end

