-- ==== Sys2Proof/Safety.lean ====
section
/-! DEFINITION. The terms the statements use: parts of the state and frames, the machine's invariant, the tables of
R124, R20 and R254 as functions of the instruction, and runs of steps. -/

namespace Sys2Proof.Machine

/-! ## Frames -/

/-- The parts a frame speaks of, one per state element of R20, the five fault fields but `halted` taken
together. -/
inductive Part where
  | ram | v | i | pc | sp | stack | opcode | dt | st | fb | frameReady | keys | halted | faultRecord | stepOutcome
  | draws
  deriving DecidableEq, Repr

/-- A part holds in `t` what it holds in `s`; RAM byte by byte, registers one by one. -/
def Part.same (s t : State) : Part → Prop
  | .ram => ∀ a, t.ram.byte a = s.ram.byte a
  | .v => ∀ k, t.reg k = s.reg k
  | .i => t.i = s.i
  | .pc => t.pc = s.pc
  | .sp => t.sp = s.sp
  | .stack => t.stack = s.stack
  | .opcode => t.opcode = s.opcode
  | .dt => t.dt = s.dt
  | .st => t.st = s.st
  | .fb => t.fb = s.fb
  | .frameReady => t.frameReady = s.frameReady
  | .keys => t.keys = s.keys
  | .halted => t.halted = s.halted
  | .faultRecord =>
    t.faultCause = s.faultCause ∧ t.faultPc = s.faultPc ∧ t.faultWord = s.faultWord ∧ t.faultAddr = s.faultAddr
  | .stepOutcome => t.stepOutcome = s.stepOutcome
  | .draws => t.draws = s.draws

/-- Every part outside `ps` is the same in `t` as in `s`. -/
def KeepsAllBut (ps : List Part) (s t : State) : Prop := ∀ p, p ∉ ps → p.same s t

/-- Every register outside `xs` is the same in `t` as in `s`. -/
def KeepsRegsBut (xs : List Reg) (s t : State) : Prop := ∀ k, k ∉ xs → t.reg k = s.reg k

/-- The instruction answers a next state with the property `Q`. -/
def Completes (i : Instr) (s : State) (Q : State → Prop) : Prop := ∃ t, exec i s = .next t ∧ Q t

/-- One row of the opcode map (R99): every word that is `pattern` under `mask` is the instruction `build` makes of
it. -/
def Encodes (mask pattern : Word) (build : Word → Instr) : Prop :=
  ∀ w, w &&& mask = pattern → decodeWord w = .ok (build w)

/-- A step answers a next state with the property `Q`. -/
def Steps (s : State) (Q : State → Prop) : Prop := ∃ t, step s = .next t ∧ Q t

/-- The pc of a next state. -/
def nextPc (o : Host.Outcome State Fault Refusal) : Option Word :=
  match o with
  | .next t => some t.pc
  | .fault _ => none
  | .refused _ => none

/-- The state after a fatal fault raised in the state `s` with the instruction word `word` (R251, R253). -/
def FatalAfter (cause : FaultCause) (word : Word) (addr : Nat) (s t : State) : Prop :=
  t.halted = true ∧ t.faultCause = cause ∧ t.faultPc = s.pc ∧ t.faultWord = word ∧ t.faultAddr.toNat = addr

/-- The execute phase raises the addressing fault and has no other effect (R253, R256). -/
def RaisesFault (i : Instr) (s : State) (cause : FaultCause) (addr : Nat) : Prop :=
  Completes i s fun t => FatalAfter cause s.opcode addr s t ∧ KeepsAllBut [.halted, .faultRecord] s t

/-- The word RAM holds at pc and pc + 1, big-endian (R65, R120). -/
def State.wordAtPc (s : State) : Word :=
  BitVec.ofNat 16 (256 * (s.ram.byte s.pc.toNat).toNat + (s.ram.byte (s.pc.toNat + 1)).toNat)

/-- The machine is running and both bytes of the word at pc are in RAM (R120, R121). -/
def State.CanFetch (s : State) : Prop := s.halted = false ∧ s.pc.toNat ≤ 0xFFE

/-- The next step fetches the instruction `i`. -/
def State.Fetches (s : State) (i : Instr) : Prop := s.CanFetch ∧ decodeWord s.wordAtPc = .ok i

/-! ## Stores over the next instruction (R75) -/

/-- The byte at `a` after FX55 with last register `x` (R195). -/
def State.afterStoreRegs (s : State) (x : Reg) (a : Nat) : Byte :=
  if s.i.toNat ≤ a ∧ a ≤ s.i.toNat + x.val then s.reg (Fin.ofNat 16 (a - s.i.toNat)) else s.ram.byte a

/-- The byte at `a` after FX33 of V[x] (R194). -/
def State.afterBcd (s : State) (x : Reg) (a : Nat) : Byte :=
  if a = s.i.toNat then BitVec.ofNat 8 ((s.reg x).toNat / 100)
  else if a = s.i.toNat + 1 then BitVec.ofNat 8 ((s.reg x).toNat / 10 % 10)
  else if a = s.i.toNat + 2 then BitVec.ofNat 8 ((s.reg x).toNat % 10)
  else s.ram.byte a

/-- The next step executes the word latched before its stores, and the step after it fetches at pc + 2 the bytes that
`after` says RAM holds then. -/
def Refetches (s : State) (after : Nat → Byte) : Prop :=
  Steps s fun t => t.opcode = s.wordAtPc ∧
    Steps t fun u => u.opcode.toNat = 256 * (after (s.pc.toNat + 2)).toNat + (after (s.pc.toNat + 3)).toNat

/-! ## The invariant -/

/-- Where the fault record can stand, by its cause (R251, R254), under the policy `skip`. The last five are the
states right after a fatal fault, which only reset leaves. -/
def State.FaultLegal (s : State) : Prop :=
  match s.faultCause with
  | .none => s.halted = false ∧ s.faultPc = 0#16 ∧ s.faultWord = 0#16 ∧ s.faultAddr = 0#16
  | .decode => s.halted = false ∧ s.faultAddr = 0#16 ∧ ∃ f, decodeWord s.faultWord = .error f
  | .fetchRange =>
    s.halted = true ∧ s.faultPc = s.pc ∧ s.faultWord = 0#16 ∧ s.pc.toNat > 0xFFE ∧
      s.faultAddr.toNat = max s.pc.toNat 0x1000
  | .readRange =>
    s.halted = true ∧ s.faultPc = s.pc ∧ s.faultWord = s.opcode ∧ s.faultAddr.toNat = max s.i.toNat 0x1000 ∧
      ((∃ x y n, decodeWord s.opcode = .ok (.drw x y n)) ∨ ∃ x, decodeWord s.opcode = .ok (.loadRegs x))
  | .writeRange =>
    s.halted = true ∧ s.faultPc = s.pc ∧ s.faultWord = s.opcode ∧ s.faultAddr.toNat = max s.i.toNat 0x1000 ∧
      ∃ x, decodeWord s.opcode = .ok (.ldBVx x) ∨ decodeWord s.opcode = .ok (.storeRegs x)
  | .stackOverflow =>
    s.halted = true ∧ s.faultPc = s.pc ∧ s.faultWord = s.opcode ∧ s.faultAddr = 16#16 ∧ s.sp = 16 ∧
      ∃ nnn, decodeWord s.opcode = .ok (.call nnn)
  | .stackUnderflow =>
    s.halted = true ∧ s.faultPc = s.pc ∧ s.faultWord = s.opcode ∧ s.faultAddr = 0#16 ∧ s.sp = 0 ∧
      decodeWord s.opcode = .ok .ret
  | .keyRange =>
    s.halted = true ∧ s.faultPc = s.pc ∧ s.faultWord = s.opcode ∧ s.faultAddr.toNat > 0xF ∧
      ∃ x, s.faultAddr.toNat = (s.reg x).toNat ∧
        (decodeWord s.opcode = .ok (.skp x) ∨ decodeWord s.opcode = .ok (.sknp x))

/-- What every step keeps: RAM in its canonical form, no stack slot above 0xFFE and no pc above 0x10FE (R29,
R140), the fault record as its cause says (R251). -/
structure State.Inv (s : State) : Prop where
  ramWf : s.ram.wf
  stackBound : ∀ j : Fin 16, s.stack[j].toNat ≤ 0xFFE
  pcBound : s.pc.toNat ≤ 0x10FE
  faultLegal : s.FaultLegal

/-! ## The spec's tables as functions of the instruction -/

/-- Some key is pressed. -/
def State.anyKey (s : State) : Bool := s.keys.toList.any id

/-- pc after a completed instruction (R124), as a number before the 16-bit wrap. -/
def pcTable (s : State) : Instr → Nat
  | .jp nnn => nnn.toNat
  | .call nnn => nnn.toNat
  | .jpV0 nnn => nnn.toNat + (s.reg 0).toNat
  | .ret => s.stack[s.sp.val - 1]!.toNat + 2
  | .seByte x nn => if s.reg x = nn then s.pc.toNat + 4 else s.pc.toNat + 2
  | .sneByte x nn => if s.reg x ≠ nn then s.pc.toNat + 4 else s.pc.toNat + 2
  | .seReg x y => if s.reg x = s.reg y then s.pc.toNat + 4 else s.pc.toNat + 2
  | .sneReg x y => if s.reg x ≠ s.reg y then s.pc.toNat + 4 else s.pc.toNat + 2
  | .skp x => if s.keys[(s.reg x).toNat]! = true then s.pc.toNat + 4 else s.pc.toNat + 2
  | .sknp x => if s.keys[(s.reg x).toNat]! = false then s.pc.toNat + 4 else s.pc.toNat + 2
  | .ldVxK _ => if s.anyKey then s.pc.toNat + 2 else s.pc.toNat
  | .cls | .ldByte _ _ | .addByte _ _ | .ldReg _ _ | .orReg _ _ | .andReg _ _ | .xorReg _ _ => s.pc.toNat + 2
  | .addReg _ _ | .subReg _ _ | .shr _ _ | .subnReg _ _ | .shl _ _ | .ldI _ | .rnd _ _ => s.pc.toNat + 2
  | .drw _ _ _ | .ldVxDt _ | .ldDtVx _ | .ldStVx _ | .addIVx _ | .ldFVx _ | .ldBVx _ => s.pc.toNat + 2
  | .storeRegs _ | .loadRegs _ => s.pc.toNat + 2

/-- The state elements an instruction may write besides pc when it completes: the "written by" column of R20, read
by instruction. -/
def writeTable : Instr → List Part
  | .cls => [.fb]
  | .ret => [.sp]
  | .call _ => [.sp, .stack]
  | .jp _ | .jpV0 _ | .seByte _ _ | .sneByte _ _ | .seReg _ _ | .sneReg _ _ | .skp _ | .sknp _ => []
  | .ldByte _ _ | .addByte _ _ | .ldReg _ _ | .orReg _ _ | .andReg _ _ | .xorReg _ _ => [.v]
  | .addReg _ _ | .subReg _ _ | .shr _ _ | .subnReg _ _ | .shl _ _ => [.v]
  | .ldVxDt _ | .ldVxK _ | .loadRegs _ => [.v]
  | .rnd _ _ => [.v, .draws]
  | .ldI _ | .ldFVx _ => [.i]
  | .addIVx _ => [.i, .v]
  | .drw _ _ _ => [.fb, .v, .frameReady]
  | .ldDtVx _ => [.dt]
  | .ldStVx _ => [.st]
  | .ldBVx _ | .storeRegs _ => [.ram]

/-- The registers an instruction may write (R20, R24): its destination, and VF for the seven that set the
flag. -/
def regTable : Instr → List Reg
  | .ldByte x _ | .addByte x _ | .ldReg x _ | .orReg x _ | .andReg x _ | .xorReg x _ | .rnd x _ => [x]
  | .ldVxDt x | .ldVxK x => [x]
  | .addReg x _ | .subReg x _ | .shr x _ | .subnReg x _ | .shl x _ => [x, vF]
  | .addIVx _ | .drw _ _ _ => [vF]
  | .loadRegs x => (List.finRange 16).filter (· ≤ x)
  | .cls | .ret | .jp _ | .call _ | .jpV0 _ | .seByte _ _ | .sneByte _ _ | .seReg _ _ | .sneReg _ _ => []
  | .skp _ | .sknp _ | .ldI _ | .ldFVx _ | .ldDtVx _ | .ldStVx _ | .ldBVx _ | .storeRegs _ => []

/-- The fault an instruction can raise in its execute phase (R254). -/
def faultTable : Instr → Option FaultCause
  | .ret => some .stackUnderflow
  | .call _ => some .stackOverflow
  | .drw _ _ _ | .loadRegs _ => some .readRange
  | .ldBVx _ | .storeRegs _ => some .writeRange
  | .skp _ | .sknp _ => some .keyRange
  | .cls | .jp _ | .jpV0 _ | .seByte _ _ | .sneByte _ _ | .seReg _ _ | .sneReg _ _ => none
  | .ldByte _ _ | .addByte _ _ | .ldReg _ _ | .orReg _ _ | .andReg _ _ | .xorReg _ _ => none
  | .addReg _ _ | .subReg _ _ | .shr _ _ | .subnReg _ _ | .shl _ _ | .rnd _ _ => none
  | .ldI _ | .addIVx _ | .ldFVx _ | .ldVxDt _ | .ldVxK _ | .ldDtVx _ | .ldStVx _ => none

/-! ## The sprite of a draw (R211-R213) -/

/-- Sprite row r, column c of the sprite at I has a 1-bit: bit 7 - c of RAM[I + r]. -/
def State.spriteOn (s : State) (r c : Nat) : Prop := (s.ram.byte (s.i.toNat + r)).getLsbD (7 - c) = true

/-- Sprite row r, column c of a draw at (V[x], V[y]) falls on framebuffer row py, column px. -/
def State.spriteAt (s : State) (x y : Reg) (r c : Nat) (py : Fin 32) (px : Fin 64) : Prop :=
  ((s.reg x).toNat + c) % 64 = px.val ∧ ((s.reg y).toNat + r) % 32 = py.val

/-- Some 1-bit of the n-row sprite falls on framebuffer row py, column px. -/
def State.touched (s : State) (x y : Reg) (n : Nat) (py : Fin 32) (px : Fin 64) : Prop :=
  ∃ r c, r < n ∧ c < 8 ∧ s.spriteOn r c ∧ s.spriteAt x y r c py px

/-! ## Runs of steps -/

/-- Each step of the run executes, in order, the listed instruction with outcome OK. -/
inductive Executes : List Instr → State → State → Prop where
  | done (s : State) : Executes [] s s
  | step {s t u : State} {i : Instr} {p : List Instr} (h : step s = .next t) (ok : t.stepOutcome = .ok)
      (hi : decodeWord t.opcode = .ok i) (rest : Executes p t u) : Executes (i :: p) s u

/-- A sequence whose calls and returns balance, with any other instructions among them (R148). -/
inductive Balanced : List Instr → Prop where
  | empty : Balanced []
  | other {i : Instr} {p : List Instr} (hc : ∀ nnn, i ≠ .call nnn) (hr : i ≠ .ret) (hp : Balanced p) :
      Balanced (i :: p)
  | pair {p q : List Instr} (nnn : Addr) (hp : Balanced p) (hq : Balanced q) :
      Balanced (.call nnn :: (p ++ .ret :: q))

end Sys2Proof.Machine
end

