-- ==== Sys2Proof/Certificates/Slice0/Obligations.lean ====
section
/-! DEFINITION. The statements for the provers, in the order of the spec's files. -/

open Sys2Proof
open Sys2Proof.Machine

/-! ## 30_encoding.md -/

/-- R91: the fields of a word are these bits of it. -/
def Obligations.FieldsAreTheStatedBits : Prop :=
  ∀ w : Word,
    (fieldF w).toNat = w.toNat / 4096 ∧
    (fieldX w).val = w.toNat / 256 % 16 ∧
    (fieldY w).val = w.toNat / 16 % 16 ∧
    (fieldN w).toNat = w.toNat % 16 ∧
    (fieldNN w).toNat = w.toNat % 256 ∧
    (fieldNNN w).toNat = w.toNat % 4096

/-- R90: an instruction is the big-endian word of two bytes, and nothing else of the byte string is looked at;
the encoder writes two bytes. That one byte or none is rejected as `truncated` is the model's choice (log 21). -/
def Obligations.InstructionIsTwoBytes : Prop :=
  (∀ hi lo rest, decode (hi :: lo :: rest) =
    (decodeWord (BitVec.ofNat 16 (256 * hi.toNat + lo.toNat))).map fun i => (i, rest)) ∧
  (∀ b, decode [b] = .error .truncated) ∧ decode [] = .error .truncated ∧
  ∀ i, (encodeBytes i).length = 2

/-- A few words written out from R99, one or more of each family, and what they stand for. The family in the decode
fault's name is the model's choice (log 21). -/
def Obligations.WrittenWordsDecode : Prop :=
  decodeWord 0x00E0#16 = .ok .cls ∧ decodeWord 0x00EE#16 = .ok .ret ∧
  decodeWord 0x1228#16 = .ok (.jp 0x228#12) ∧ decodeWord 0x3A42#16 = .ok (.seByte 10 0x42#8) ∧
  decodeWord 0x8127#16 = .ok (.subnReg 1 2) ∧ decodeWord 0xA123#16 = .ok (.ldI 0x123#12) ∧
  decodeWord 0xD12F#16 = .ok (.drw 1 2 15) ∧ decodeWord 0xE5A1#16 = .ok (.sknp 5) ∧
  decodeWord 0xF365#16 = .ok (.loadRegs 3) ∧ decodeWord 0x8128#16 = .error (.family8 0x8128#16)

/-- R99: there are 34 rows, a word that matches a row decodes to that row's instruction with the operands of its
fields, and no word matches two rows. The masks of 00E0, 00EE, 5XY0 and 9XY0 rest on R94, R95 and the spec's decisions
D21 and D22 (log 9). -/
def Obligations.OpcodeMapIsDecoded : Prop :=
  opcodeMap.length = 34 ∧
  (∀ r ∈ opcodeMap, ∀ w, w &&& r.mask = r.pattern → decodeWord w = .ok (r.build w)) ∧
  opcodeMap.Pairwise fun r q => ∀ w, ¬ (w &&& r.mask = r.pattern ∧ w &&& q.mask = q.pattern)

/-- R100, the words: a word is a decode fault exactly when it lies in one of the four families and outside its
listed selectors, and the fault carries the word. The hardware knows one class of decode fault; naming it by family is
the model's choice (log 21). -/
def Obligations.DecodeFaultWords : Prop :=
  ∀ w : Word,
    (decodeWord w = .error (.family0 w) ↔
      w.toNat / 4096 = 0x0 ∧ w.toNat % 256 ∉ [0xE0, 0xEE]) ∧
    (decodeWord w = .error (.family8 w) ↔
      w.toNat / 4096 = 0x8 ∧ w.toNat % 16 ∈ [0x8, 0x9, 0xA, 0xB, 0xC, 0xD, 0xF]) ∧
    (decodeWord w = .error (.familyE w) ↔
      w.toNat / 4096 = 0xE ∧ w.toNat % 256 ∉ [0x9E, 0xA1]) ∧
    (decodeWord w = .error (.familyF w) ↔
      w.toNat / 4096 = 0xF ∧ w.toNat % 256 ∉ [0x07, 0x0A, 0x15, 0x18, 0x1E, 0x29, 0x33, 0x55, 0x65]) ∧
    ∀ f, decodeWord w = .error f → f = .family0 w ∨ f = .family8 w ∨ f = .familyE w ∨ f = .familyF w

/-- R102: words that differ only in bits no decoder reads are the same instruction, and the Y field of 8XY6
and 8XYE has no effect. -/
def Obligations.UnreadBitsHaveNoEffect : Prop :=
  (∀ w u : Word, w &&& 0xF0FF#16 = u &&& 0xF0FF#16 → w.toNat / 4096 = 0 → decodeWord w = .ok .cls →
    decodeWord u = .ok .cls) ∧
  (∀ w u : Word, w &&& 0xF0FF#16 = u &&& 0xF0FF#16 → w.toNat / 4096 = 0 → decodeWord w = .ok .ret →
    decodeWord u = .ok .ret) ∧
  (∀ w u : Word, w &&& 0xFFF0#16 = u &&& 0xFFF0#16 → w.toNat / 4096 = 5 ∨ w.toNat / 4096 = 9 →
    decodeWord w = decodeWord u) ∧
  ∀ x y y' s, exec (.shr x y) s = exec (.shr x y') s ∧ exec (.shl x y) s = exec (.shl x y') s

/-- Decode and encode agree on every well-formed instruction, whatever bytes follow it. -/
def Obligations.DecodeOfEncodeIsTheInstruction : Prop :=
  ∀ i rest, i.wf = true → decode (encodeBytes i ++ rest) = .ok (i, rest)

/-- The other direction: what a word decodes to is well-formed, and encoding it gives the word back with the
bits no decoder reads cleared. -/
def Obligations.EncodeOfDecodeIsTheWord : Prop :=
  ∀ w i, decodeWord w = .ok i → i.wf = true ∧ encode i = w &&& readMask i

/-! ## 20_memory.md -/

/-- R62: the byte primitives answer exactly for addresses up to 0xFFF; a write puts the value modulo 256 there and
changes no other byte. That a canonical memory stays canonical speaks of the model's representation (log 1). -/
def Obligations.MemoryPrimitivesReadAndWriteOneByte : Prop :=
  ∀ (m : Memory) (a v : Nat),
    (m.read? a = none ↔ a > 0xFFF) ∧ (m.write? a (BitVec.ofNat 8 v) = none ↔ a > 0xFFF) ∧
    (∀ c, m.read? a = some c → c = m.byte a) ∧
    ∀ m', m.write? a (BitVec.ofNat 8 v) = some m' →
      (m.wf → (m'.byte a).toNat = v % 256 ∧ m'.wf) ∧ ∀ a', a' ≠ a → m'.byte a' = m.byte a'

/-- R75: what FX55 and FX33 store over one byte or both of the instruction that follows is seen by the very next
fetch, and the word now executing is the one latched before the store. -/
def Obligations.StoredWordIsFetchedNext : Prop :=
  ∀ (s : State) (x : Reg), s.ram.wf → s.pc.toNat ≤ 0xFFC →
    (s.Fetches (.storeRegs x) → s.i.toNat + x.val ≤ 0xFFF → Refetches s (s.afterStoreRegs x)) ∧
    (s.Fetches (.ldBVx x) → s.i.toNat + 2 ≤ 0xFFF → Refetches s (s.afterBcd x))

/-! ## 40_step_cycle.md -/

/-- R120, R122, R123, R125: with the machine running and pc in range, a word that decodes to `i` is latched, `i`
is executed, and then a completed instruction ticks the timers with outcome OK, while a fatal fault ends the
step with outcome FAULT. -/
def Obligations.StepRunsTheDecodedInstruction : Prop :=
  ∀ (s t : State) (i : Instr), s.Fetches i → exec i { s with opcode := s.wordAtPc } = .next t →
    step s = .next (if t.halted then { t with stepOutcome := .fault }
      else { t with
        dt := BitVec.ofNat 8 (t.dt.toNat - 1), st := BitVec.ofNat 8 (t.st.toNat - 1), stepOutcome := .ok })

/-- R127: a step of a halted machine answers HALTED and changes nothing. The outcome stands in a field of the
model (log 5). -/
def Obligations.HaltedStepChangesNothing : Prop :=
  ∀ s, s.halted = true → step s = .next { s with stepOutcome := .halted }

/-- R121: a fetch that reaches outside RAM is a fatal fault with the lowest bad address, and the latch keeps its
word. The record and what is kept are R251 and R253 (the spec's decisions D5 and D24, log 15), the outcome R126 in a
field of the model (log 5). -/
def Obligations.FetchOutsideRamIsFatal : Prop :=
  ∀ s, s.halted = false → s.pc.toNat > 0xFFE →
    Steps s fun t =>
      FatalAfter .fetchRange 0x0000#16 (if s.pc.toNat > 0xFFF then s.pc.toNat else s.pc.toNat + 1) s t ∧
      t.stepOutcome = .fault ∧ KeepsAllBut [.halted, .faultRecord, .stepOutcome] s t

/-- R32: a fetch that succeeds latches the big-endian word at pc; a fetch that faults, and the step of a halted
machine, leave the latch as it was. -/
def Obligations.FetchLatchesTheWord : Prop :=
  ∀ s, (s.CanFetch → Steps s fun t =>
      t.opcode.toNat = 256 * (s.ram.byte s.pc.toNat).toNat + (s.ram.byte (s.pc.toNat + 1)).toNat) ∧
    (¬ s.CanFetch → Steps s fun t => t.opcode = s.opcode)

/-- R126: every step, from every state, answers a next state, and its outcome is HALTED for a halted machine,
FAULT when the machine has halted in it, and OK or DECODE_SKIPPED otherwise. -/
def Obligations.EveryStepCompletes : Prop :=
  ∀ s, Steps s fun t =>
    (t.stepOutcome = .halted ↔ s.halted = true) ∧
    (t.stepOutcome = .fault ↔ s.halted = false ∧ t.halted = true) ∧
    (t.stepOutcome = .ok ↔ t.halted = false ∧ ∃ i, decodeWord t.opcode = .ok i) ∧
    (t.stepOutcome = .decodeSkipped ↔ t.halted = false ∧ ∃ f, decodeWord t.opcode = .error f)

/-- R125: after a step that executed or skipped, each timer is one less than the execute phase left it, and not
below 0; only FX15 and FX18 change a timer in the execute phase. A FAULT or HALTED step leaves both as they
were. FX07 reads DT before the tick, and a waiting FX0A ticks. No tick on FAULT or HALTED is the spec's choice (C14, D5,
D25; log 15), the ticks on a skip and on a wait are D4 and D12 (logs 4, 12), the outcome is a field of the model
(log 5). -/
def Obligations.TimersTickOncePerStep : Prop :=
  (∀ s t, step s = .next t →
    (t.stepOutcome = .ok → ∀ i, decodeWord t.opcode = .ok i →
      t.dt.toNat = (match i with | .ldDtVx x => (s.reg x).toNat | _ => s.dt.toNat) - 1 ∧
      t.st.toNat = (match i with | .ldStVx x => (s.reg x).toNat | _ => s.st.toNat) - 1) ∧
    (t.stepOutcome = .decodeSkipped → t.dt.toNat = s.dt.toNat - 1 ∧ t.st.toNat = s.st.toNat - 1) ∧
    (t.stepOutcome = .fault ∨ t.stepOutcome = .halted → t.dt = s.dt ∧ t.st = s.st)) ∧
  (∀ s x, s.Fetches (.ldVxDt x) → Steps s fun t => t.reg x = s.dt) ∧
  ∀ s x, s.Fetches (.ldVxK x) → (∀ k : Fin 16, s.keys[k] = false) → Steps s fun t =>
    t.pc = s.pc ∧ t.dt.toNat = s.dt.toNat - 1 ∧ t.st.toNat = s.st.toNat - 1

/-- R124: where pc is after an instruction that completes. -/
def Obligations.PcFollowsTheTable : Prop :=
  ∀ i s t, s.halted = false → exec i s = .next t → t.halted = false → t.pc.toNat = pcTable s i % 65536

/-! ## 10_state.md -/

/-- R20, the "written by" column: an instruction that completes changes no state element but pc and those listed
for it. -/
def Obligations.InstructionsWriteOnlyTheirElements : Prop :=
  ∀ i s t, s.halted = false → exec i s = .next t → t.halted = false → KeepsAllBut (.pc :: writeTable i) s t

/-- R20, R24, R67: which registers an instruction can change, VF among them. -/
def Obligations.InstructionsWriteOnlyTheirRegisters : Prop :=
  ∀ i s t, exec i s = .next t → KeepsRegsBut (regTable i) s t

/-- R36: no instruction and no step writes the keyboard latch. EX9E (of a key index up to 15), EXA1 and FX0A read it: in
every state they answer differently with every key pressed and with none. No other instruction reads it: under any
other latch it has the same result. -/
def Obligations.KeyboardIsReadByThreeInstructions : Prop :=
  (∀ i s t, exec i s = .next t → t.keys = s.keys) ∧ (∀ s t, step s = .next t → t.keys = s.keys) ∧
  (∀ (s : State) (x : Reg),
    let down : State := { s with keys := Vector.replicate 16 true }
    let up : State := { s with keys := Vector.replicate 16 false }
    ((s.reg x).toNat < 16 → nextPc (exec (.skp x) down) ≠ nextPc (exec (.skp x) up) ∧
      nextPc (exec (.sknp x) down) ≠ nextPc (exec (.sknp x) up)) ∧
    nextPc (exec (.ldVxK x) down) ≠ nextPc (exec (.ldVxK x) up)) ∧
  ∀ i s t keys, (∀ x, i ≠ .skp x ∧ i ≠ .sknp x ∧ i ≠ .ldVxK x) → exec i s = .next t →
    exec i { s with keys := keys } = .next { t with keys := keys }

/-- R40: ST, the frame-ready flag and the opcode latch never reach a program: whatever they hold, an instruction
that completes leaves every other state element the same. -/
def Obligations.HiddenStateIsNeverRead : Prop :=
  ∀ i s t st ready word, s.halted = false → exec i s = .next t → t.halted = false →
    Completes i { s with st := st, frameReady := ready, opcode := word } fun u =>
      KeepsAllBut [.st, .frameReady, .opcode] t u ∧ u.opcode = word

/-! ## 60_exceptions.md -/

/-- R252: a decode fault under `skip` writes the record, moves pc past the word and ticks, and does nothing
else; under `fatal` it halts instead. -/
def Obligations.DecodeFaultFollowsThePolicy : Prop :=
  ∀ s f, s.CanFetch → decodeWord s.wordAtPc = .error f →
    (∃ t, stepWith .skip s = .next t ∧ t.faultCause = .decode ∧ t.faultPc = s.pc ∧ t.faultWord = s.wordAtPc ∧
      t.faultAddr = 0#16 ∧ t.pc.toNat = s.pc.toNat + 2 ∧ t.dt.toNat = s.dt.toNat - 1 ∧
      t.st.toNat = s.st.toNat - 1 ∧ t.opcode = s.wordAtPc ∧ t.stepOutcome = .decodeSkipped ∧
      KeepsAllBut [.pc, .dt, .st, .opcode, .faultRecord, .stepOutcome] s t) ∧
    (∃ t, stepWith .fatal s = .next t ∧ FatalAfter .decode s.wordAtPc 0 s t ∧ t.opcode = s.wordAtPc ∧
      t.stepOutcome = .fault ∧ KeepsAllBut [.opcode, .halted, .faultRecord, .stepOutcome] s t) ∧
    step s = stepWith .skip s

/-- R253, R256: a step that answers FAULT leaves every state element but the latch, `halted` and the fault record
as it was, and `fault_pc` is the unchanged pc. -/
def Obligations.FatalFaultsArePrecise : Prop :=
  ∀ s t, step s = .next t → t.stepOutcome = .fault →
    t.halted = true ∧ t.faultPc = s.pc ∧ KeepsAllBut [.opcode, .halted, .faultRecord, .stepOutcome] s t

/-- R254: an instruction halts the machine only with the one cause listed for it; the others complete in every
state. -/
def Obligations.InstructionsRaiseOnlyTheirFault : Prop :=
  ∀ i s, s.halted = false → Completes i s fun t => t.halted = true → faultTable i = some t.faultCause

/-- R251, R254 and R29 as an invariant: from every state that has it, a step leads to one that has it. The
policy is `skip` (log 4). -/
def Obligations.StepKeepsTheInvariant : Prop :=
  ∀ s t : State, s.Inv → step s = .next t → t.Inv

/-- The invariant holds right after reset. -/
def Obligations.ResetHasTheInvariant : Prop := State.reset.Inv

/-- No host transaction breaks the invariant; a reset is taken with a start address inside its bound, as this
hardware's is. -/
def Obligations.HostKeepsTheInvariant : Prop :=
  ∀ (s t : State) (a : HostAction), s.Inv → (∀ start font, a = .rst start font → start.toNat ≤ 0x10FE) → s.host a = .next t → t.Inv

/-! ## 41_control_flow.md -/

/-- R140: with an occupied stack, 00EE goes to the popped address + 2 and frees the slot without clearing it. -/
def Obligations.ReturnGoesPastTheCall : Prop :=
  ∀ s, 0 < s.sp.val →
    Completes .ret s fun t =>
      t.pc.toNat = (s.stack[s.sp.val - 1].toNat + 2) % 65536 ∧ t.sp.val = s.sp.val - 1 ∧
      KeepsAllBut [.pc, .sp] s t

/-- R142: with a free slot, 2NNN pushes its own address and goes to NNN. -/
def Obligations.CallPushesItsOwnAddress : Prop :=
  ∀ s nnn, (h : s.sp.val < 16) →
    Completes (.call nnn) s fun t =>
      t.pc.toNat = nnn.toNat ∧ t.sp.val = s.sp.val + 1 ∧ t.stack[s.sp.val] = s.pc ∧
      (∀ j : Fin 16, j.val ≠ s.sp.val → t.stack[j] = s.stack[j]) ∧ KeepsAllBut [.pc, .sp, .stack] s t

/-- R140, R142: a return from an empty stack and a call on a full one raise their fault, and nothing else
happens. -/
def Obligations.StackLimitsAreFatal : Prop :=
  (∀ s, s.sp.val = 0 → RaisesFault .ret s .stackUnderflow 0) ∧
  ∀ s nnn, s.sp.val = 16 → RaisesFault (.call nnn) s .stackOverflow 16

/-- R141: 1NNN goes to NNN, odd or at the end of RAM as it may be; nothing but pc changes. -/
def Obligations.JumpGoesToItsTarget : Prop :=
  Encodes 0xF000#16 0x1000#16 (fun w => .jp (fieldNNN w)) ∧
  ∀ s nnn, Completes (.jp nnn) s fun t => t.pc.toNat = nnn.toNat ∧ KeepsAllBut [.pc] s t

/-- R147: BNNN goes to NNN + V0 with no 12-bit mask (log 14); nothing but pc changes. -/
def Obligations.ComputedJumpHasNoMask : Prop :=
  Encodes 0xF000#16 0xB000#16 (fun w => .jpV0 (fieldNNN w)) ∧
  ∀ s nnn, Completes (.jpV0 nnn) s fun t => t.pc.toNat = nnn.toNat + (s.reg 0).toNat ∧ KeepsAllBut [.pc] s t

/-- R143, R144: 3XNN skips when V[X] is NN and 4XNN when it is not; nothing but pc changes. -/
def Obligations.ByteSkipsCompareWithImmediate : Prop :=
  Encodes 0xF000#16 0x3000#16 (fun w => .seByte (fieldX w) (fieldNN w)) ∧
  Encodes 0xF000#16 0x4000#16 (fun w => .sneByte (fieldX w) (fieldNN w)) ∧
  ∀ s x nn,
    Completes (.seByte x nn) s (fun t =>
      t.pc = s.pc + (if s.reg x = nn then 4#16 else 2#16) ∧ KeepsAllBut [.pc] s t) ∧
    Completes (.sneByte x nn) s fun t =>
      t.pc = s.pc + (if s.reg x = nn then 2#16 else 4#16) ∧ KeepsAllBut [.pc] s t

/-- R145, R146: 5XY0 skips when V[X] is V[Y] and 9XY0 when it is not; with X = Y the first always skips and the
second never; nothing but pc changes. -/
def Obligations.RegisterSkipsCompareRegisters : Prop :=
  ∀ s x y,
    Completes (.seReg x y) s (fun t =>
      t.pc = s.pc + (if s.reg x = s.reg y then 4#16 else 2#16) ∧ KeepsAllBut [.pc] s t) ∧
    Completes (.sneReg x y) s (fun t =>
      t.pc = s.pc + (if s.reg x = s.reg y then 2#16 else 4#16) ∧ KeepsAllBut [.pc] s t) ∧
    Completes (.seReg x x) s (fun t => t.pc = s.pc + 4#16) ∧
    Completes (.sneReg x x) s (fun t => t.pc = s.pc + 2#16)

/-- R148: a run of steps whose calls and returns balance ends at the stack depth where it began, with the
occupied slots as they were; wrapped in a call and its return it comes back to the instruction after the
call. -/
def Obligations.BalancedCallsReturn : Prop :=
  (∀ p s t, Balanced p → Executes p s t →
    t.sp = s.sp ∧ ∀ j : Fin 16, j.val < s.sp.val → t.stack[j] = s.stack[j]) ∧
  ∀ p nnn s t, Balanced p → Executes (.call nnn :: (p ++ [.ret])) s t →
    t.pc.toNat = s.pc.toNat + 2 ∧ t.sp = s.sp

/-! ## 42_register_alu.md -/

/-- R161, R162: 6XNN puts NN in V[X]; 7XNN adds it modulo 256 with no flag; no other register changes. -/
def Obligations.ImmediateLoadAndAdd : Prop :=
  Encodes 0xF000#16 0x6000#16 (fun w => .ldByte (fieldX w) (fieldNN w)) ∧
  Encodes 0xF000#16 0x7000#16 (fun w => .addByte (fieldX w) (fieldNN w)) ∧
  ∀ s x nn,
    Completes (.ldByte x nn) s (fun t =>
      t.reg x = nn ∧ t.pc = s.pc + 2#16 ∧ KeepsRegsBut [x] s t ∧ KeepsAllBut [.v, .pc] s t) ∧
    Completes (.addByte x nn) s fun t =>
      (t.reg x).toNat = ((s.reg x).toNat + nn.toNat) % 256 ∧ t.pc = s.pc + 2#16 ∧
      KeepsRegsBut [x] s t ∧ KeepsAllBut [.v, .pc] s t

/-- R163-R166: copy, OR, AND and XOR bit by bit; VF changes only as the destination. -/
def Obligations.CopyAndLogicWriteOneRegister : Prop :=
  Encodes 0xF00F#16 0x8000#16 (fun w => .ldReg (fieldX w) (fieldY w)) ∧
  Encodes 0xF00F#16 0x8001#16 (fun w => .orReg (fieldX w) (fieldY w)) ∧
  Encodes 0xF00F#16 0x8002#16 (fun w => .andReg (fieldX w) (fieldY w)) ∧
  Encodes 0xF00F#16 0x8003#16 (fun w => .xorReg (fieldX w) (fieldY w)) ∧
  ∀ (i : Instr) (s : State) (x y : Reg) (op : Bool → Bool → Bool),
    (i = .ldReg x y ∧ op = fun _ b => b) ∨ (i = .orReg x y ∧ op = or) ∨ (i = .andReg x y ∧ op = and) ∨
      (i = .xorReg x y ∧ op = xor) →
    Completes i s fun t =>
      (∀ j, j < 8 → (t.reg x).getLsbD j = op ((s.reg x).getLsbD j) ((s.reg y).getLsbD j)) ∧
      t.pc = s.pc + 2#16 ∧ KeepsRegsBut [x] s t ∧ KeepsAllBut [.v, .pc] s t

/-- R160, R167: the sum modulo 256 in V[X], the carry in VF, both from the old operands, the flag last. -/
def Obligations.AddSetsCarry : Prop :=
  ∀ s x y, Completes (.addReg x y) s fun t =>
    (t.reg 15).toNat = (if (s.reg x).toNat + (s.reg y).toNat > 255 then 1 else 0) ∧
    (x ≠ 15 → (t.reg x).toNat = ((s.reg x).toNat + (s.reg y).toNat) % 256) ∧
    t.pc = s.pc + 2#16 ∧ KeepsRegsBut [x, 15] s t ∧ KeepsAllBut [.v, .pc] s t

/-- R160, R168, R170: the difference modulo 256 in V[X] and not-borrow in VF, from the old operands, the flag
last; equal operands are no borrow. -/
def Obligations.SubtractionsSetNotBorrow : Prop :=
  ∀ s x y,
    Completes (.subReg x y) s (fun t =>
      (t.reg 15).toNat = (if (s.reg y).toNat ≤ (s.reg x).toNat then 1 else 0) ∧
      (x ≠ 15 → (t.reg x).toNat = (256 + (s.reg x).toNat - (s.reg y).toNat) % 256) ∧
      t.pc = s.pc + 2#16 ∧ KeepsRegsBut [x, 15] s t ∧ KeepsAllBut [.v, .pc] s t) ∧
    Completes (.subnReg x y) s fun t =>
      (t.reg 15).toNat = (if (s.reg x).toNat ≤ (s.reg y).toNat then 1 else 0) ∧
      (x ≠ 15 → (t.reg x).toNat = (256 + (s.reg y).toNat - (s.reg x).toNat) % 256) ∧
      t.pc = s.pc + 2#16 ∧ KeepsRegsBut [x, 15] s t ∧ KeepsAllBut [.v, .pc] s t

/-- R160, R169, R171: V[X] shifted by one, the bit shifted out in VF, the flag last; Y is not read. -/
def Obligations.ShiftsMoveOneBitToTheFlag : Prop :=
  ∀ s x y,
    Completes (.shr x y) s (fun t =>
      (t.reg 15).toNat = (s.reg x).toNat % 2 ∧ (x ≠ 15 → (t.reg x).toNat = (s.reg x).toNat / 2) ∧
      t.pc = s.pc + 2#16 ∧ KeepsRegsBut [x, 15] s t ∧ KeepsAllBut [.v, .pc] s t) ∧
    Completes (.shl x y) s fun t =>
      (t.reg 15).toNat = (s.reg x).toNat / 128 ∧ (x ≠ 15 → (t.reg x).toNat = 2 * (s.reg x).toNat % 256) ∧
      t.pc = s.pc + 2#16 ∧ KeepsRegsBut [x, 15] s t ∧ KeepsAllBut [.v, .pc] s t

/-- R172: V[X] is the drawn byte masked by NN, for every byte drawn; a bit that NN lacks is 0. The draw counter is
the model's (log 6) and moves on by one. -/
def Obligations.RandomIsTheDrawUnderTheMask : Prop :=
  ∀ s x nn, Completes (.rnd x nn) s fun t =>
    (∀ j, j < 8 → (t.reg x).getLsbD j = (nn.getLsbD j && (Config.rand8 s.draws).getLsbD j)) ∧
    (nn = 0x00#8 → t.reg x = 0x00#8) ∧ t.draws = s.draws + 1 ∧ t.pc = s.pc + 2#16 ∧
    KeepsRegsBut [x] s t ∧ KeepsAllBut [.v, .pc, .draws] s t

/-! ## 43_index_memory.md -/

/-- R190, R193: ANNN puts NNN in I; FX29 puts five times the whole of V[X] in I. -/
def Obligations.IndexLoads : Prop :=
  Encodes 0xF000#16 0xA000#16 (fun w => .ldI (fieldNNN w)) ∧
  Encodes 0xF0FF#16 0xF029#16 (fun w => .ldFVx (fieldX w)) ∧
  (∀ s nnn, Completes (.ldI nnn) s fun t =>
    t.i.toNat = nnn.toNat ∧ t.pc = s.pc + 2#16 ∧ KeepsAllBut [.i, .pc] s t) ∧
  ∀ s x, Completes (.ldFVx x) s fun t =>
    t.i.toNat = 5 * (s.reg x).toNat ∧ t.pc = s.pc + 2#16 ∧ KeepsAllBut [.i, .pc] s t

/-- R192: I is the sum modulo 2^16, and VF is 1 exactly when the sum before the wrap exceeds 0xFFF; the addend is
read before VF is written. -/
def Obligations.IndexAddSetsRangeFlag : Prop :=
  ∀ s x, Completes (.addIVx x) s fun t =>
    t.i.toNat = (s.i.toNat + (s.reg x).toNat) % 65536 ∧
    (t.reg 15).toNat = (if s.i.toNat + (s.reg x).toNat > 0xFFF then 1 else 0) ∧
    t.pc = s.pc + 2#16 ∧ KeepsRegsBut [15] s t ∧ KeepsAllBut [.i, .v, .pc] s t

/-- R194: the decimal digits of V[X] go to I, I + 1 and I + 2, and every other byte keeps its value; with
I + 2 > 0xFFF the fault is raised and nothing is written (R251, R253; the spec's decisions D5 and D26, log 15). -/
def Obligations.BcdStoresThreeDigits : Prop :=
  Encodes 0xF0FF#16 0xF033#16 (fun w => .ldBVx (fieldX w)) ∧
  ∀ s x,
    (s.ram.wf → s.i.toNat + 2 ≤ 0xFFF → Completes (.ldBVx x) s fun t =>
      (t.ram.byte s.i.toNat).toNat = (s.reg x).toNat / 100 ∧
      (t.ram.byte (s.i.toNat + 1)).toNat = (s.reg x).toNat / 10 % 10 ∧
      (t.ram.byte (s.i.toNat + 2)).toNat = (s.reg x).toNat % 10 ∧
      (∀ a, a < s.i.toNat ∨ s.i.toNat + 2 < a → t.ram.byte a = s.ram.byte a) ∧
      t.pc = s.pc + 2#16 ∧ KeepsAllBut [.ram, .pc] s t) ∧
    (s.i.toNat + 2 > 0xFFF → RaisesFault (.ldBVx x) s .writeRange (max s.i.toNat 0x1000))

/-- R195: V0 to V[X] go to I, I + 1, ..., I is unchanged, and every other byte keeps its value; with I + X > 0xFFF
the fault is raised and nothing is written (R251, R253; the spec's decisions D5 and D26, log 15). -/
def Obligations.StorePutsRegistersInMemory : Prop :=
  Encodes 0xF0FF#16 0xF055#16 (fun w => .storeRegs (fieldX w)) ∧
  ∀ s x,
    (s.ram.wf → s.i.toNat + x.val ≤ 0xFFF → Completes (.storeRegs x) s fun t =>
      (∀ k, k ≤ x → t.ram.byte (s.i.toNat + k.val) = s.reg k) ∧
      (∀ a, a < s.i.toNat ∨ s.i.toNat + x.val < a → t.ram.byte a = s.ram.byte a) ∧
      t.pc = s.pc + 2#16 ∧ KeepsAllBut [.ram, .pc] s t) ∧
    (s.i.toNat + x.val > 0xFFF → RaisesFault (.storeRegs x) s .writeRange (max s.i.toNat 0x1000))

/-- R196: V0 to V[X] come from I, I + 1, ..., I is unchanged, and the registers above X keep their values; with
I + X > 0xFFF the fault is raised and no register is written (R251, R253; the spec's decisions D5 and D26, log 15). -/
def Obligations.LoadTakesRegistersFromMemory : Prop :=
  Encodes 0xF0FF#16 0xF065#16 (fun w => .loadRegs (fieldX w)) ∧
  ∀ s x,
    (s.i.toNat + x.val ≤ 0xFFF → Completes (.loadRegs x) s fun t =>
      (∀ k, k ≤ x → t.reg k = s.ram.byte (s.i.toNat + k.val)) ∧ (∀ k, x < k → t.reg k = s.reg k) ∧
      t.pc = s.pc + 2#16 ∧ KeepsAllBut [.v, .pc] s t) ∧
    (s.i.toNat + x.val > 0xFFF → RaisesFault (.loadRegs x) s .readRange (max s.i.toNat 0x1000))

/-- R197: FX55 and then FX65 with the same X and I, and no write to those bytes in between, give V0 to V[X] their
values back, whatever else has changed. -/
def Obligations.StoreThenLoadRestoresRegisters : Prop :=
  ∀ s x, s.ram.wf → s.i.toNat + x.val ≤ 0xFFF →
    Completes (.storeRegs x) s fun t =>
      ∀ u : State, u.i = s.i → (∀ k, k ≤ x.val → u.ram.byte (s.i.toNat + k) = t.ram.byte (s.i.toNat + k)) →
        Completes (.loadRegs x) u fun w => ∀ k, k ≤ x → w.reg k = s.reg k

/-! ## 44_display.md -/

/-- R210: 00E0 zeroes every pixel and changes nothing else but pc, `frame_ready` included. That every word 0XE0 is this
instruction rests on R95 and the spec's decision D21 (log 9). -/
def Obligations.ClearScreenZeroesEveryPixel : Prop :=
  Encodes 0xF0FF#16 0x00E0#16 (fun _ => .cls) ∧
  ∀ s, Completes .cls s fun t =>
    (∀ py px, pixel t.fb py px = false) ∧ t.pc = s.pc + 2#16 ∧ KeepsAllBut [.fb, .pc] s t

/-- R211-R215: a draw whose rows lie in RAM flips exactly the pixels that a 1-bit of the sprite falls on, each
coordinate wrapped on its own, sets VF to 1 exactly when one of them was 1, and sets `frame_ready`; no other
register and no byte of RAM changes. A row outside RAM raises the fault and draws nothing: that the whole range is
checked first, what is recorded and what is kept are R64, R251 and R253, the spec's decisions D26, D24 and D5 (log 15).
The bit order is its decision D13 (log 16). -/
def Obligations.DrawXorsTheSprite : Prop :=
  ∀ s x y n, n < 16 →
    ((n = 0 ∨ s.i.toNat + n - 1 ≤ 0xFFF) → Completes (.drw x y n) s fun t =>
      (∀ py px, s.touched x y n py px → pixel t.fb py px = !pixel s.fb py px) ∧
      (∀ py px, ¬ s.touched x y n py px → pixel t.fb py px = pixel s.fb py px) ∧
      ((∃ py px, s.touched x y n py px ∧ pixel s.fb py px = true) → t.reg 15 = 1#8) ∧
      ((¬ ∃ py px, s.touched x y n py px ∧ pixel s.fb py px = true) → t.reg 15 = 0#8) ∧
      t.frameReady = true ∧ t.pc = s.pc + 2#16 ∧
      KeepsRegsBut [15] s t ∧ KeepsAllBut [.fb, .v, .frameReady, .pc] s t) ∧
    (0 < n ∧ s.i.toNat + n - 1 > 0xFFF → RaisesFault (.drw x y n) s .readRange (max s.i.toNat 0x1000))

/-- R216: the places of one sprite, of at most 15 rows and 8 columns, fall on distinct pixels of the screen as the
draw wraps them. -/
def Obligations.SpritePixelsAreDistinct : Prop :=
  ∀ x0 y0 r r' c c' : Nat, r < 15 → r' < 15 → c < 8 → c' < 8 →
    spriteRow y0 r = spriteRow y0 r' → spriteCol x0 c = spriteCol x0 c' → r = r' ∧ c = c'

/-- R217: a second identical draw, with coordinates not in VF, restores every pixel, and its VF is 1 exactly when
a 1-bit of the sprite fell on a pixel that was 0 before the first. -/
def Obligations.DoubleDrawRestoresTheScreen : Prop :=
  ∀ s x y n, n < 16 → x ≠ 15 → y ≠ 15 → (n = 0 ∨ s.i.toNat + n - 1 ≤ 0xFFF) →
    Completes (.drw x y n) s fun t =>
      Completes (.drw x y n) t fun u =>
        u.fb = s.fb ∧
        (u.reg 15 = 1#8 ↔ ∃ py px, s.touched x y n py px ∧ pixel s.fb py px = false)

/-! ## 45_input_timers.md -/

/-- R230, R231: with a key index up to 15, EX9E skips when that key is pressed and EXA1 when it is not; nothing but
pc changes. -/
def Obligations.KeySkipsTestTheLatch : Prop :=
  ∀ s x, (h : (s.reg x).toNat < 16) →
    Completes (.skp x) s (fun t =>
      t.pc = s.pc + (if s.keys[(s.reg x).toNat] = true then 4#16 else 2#16) ∧ KeepsAllBut [.pc] s t) ∧
    Completes (.sknp x) s fun t =>
      t.pc = s.pc + (if s.keys[(s.reg x).toNat] = true then 2#16 else 4#16) ∧ KeepsAllBut [.pc] s t

/-- R232: a key index above 15 is the fatal KEY_RANGE fault, not masked. -/
def Obligations.KeyIndexAbove15IsFatal : Prop :=
  ∀ s x, (s.reg x).toNat > 0xF →
    RaisesFault (.skp x) s .keyRange (s.reg x).toNat ∧ RaisesFault (.sknp x) s .keyRange (s.reg x).toNat

/-- R234: with a key pressed FX0A stores the least pressed index and goes on; with none it completes and changes
nothing. -/
def Obligations.KeyWaitTakesTheLeastPressedKey : Prop :=
  ∀ s x,
    (∀ k : Fin 16, s.keys[k] = true → (∀ j : Fin 16, j < k → s.keys[j] = false) →
      Completes (.ldVxK x) s fun t =>
        (t.reg x).toNat = k.val ∧ t.pc = s.pc + 2#16 ∧ KeepsRegsBut [x] s t ∧ KeepsAllBut [.v, .pc] s t) ∧
    ((∀ k : Fin 16, s.keys[k] = false) → exec (.ldVxK x) s = .next s)

/-- R233, R235, R236: FX07 copies DT to V[X], before the tick of its own step; FX15 and FX18 copy V[X] to DT and ST,
and the byte written has been decremented once, if nonzero, when the step ends. -/
def Obligations.TimerTransfersCopyTheByte : Prop :=
  Encodes 0xF0FF#16 0xF007#16 (fun w => .ldVxDt (fieldX w)) ∧
  Encodes 0xF0FF#16 0xF015#16 (fun w => .ldDtVx (fieldX w)) ∧
  Encodes 0xF0FF#16 0xF018#16 (fun w => .ldStVx (fieldX w)) ∧
  ∀ s x,
    Completes (.ldVxDt x) s (fun t =>
      t.reg x = s.dt ∧ t.pc = s.pc + 2#16 ∧ KeepsRegsBut [x] s t ∧ KeepsAllBut [.v, .pc] s t) ∧
    Completes (.ldDtVx x) s (fun t => t.dt = s.reg x ∧ t.pc = s.pc + 2#16 ∧ KeepsAllBut [.dt, .pc] s t) ∧
    Completes (.ldStVx x) s (fun t => t.st = s.reg x ∧ t.pc = s.pc + 2#16 ∧ KeepsAllBut [.st, .pc] s t) ∧
    (s.Fetches (.ldVxDt x) → Steps s fun t => t.reg x = s.dt ∧ t.dt.toNat = s.dt.toNat - 1) ∧
    (s.Fetches (.ldDtVx x) → Steps s fun t => t.dt.toNat = (s.reg x).toNat - 1 ∧ t.st.toNat = s.st.toNat - 1) ∧
    (s.Fetches (.ldStVx x) → Steps s fun t => t.st.toNat = (s.reg x).toNat - 1 ∧ t.dt.toNat = s.dt.toNat - 1)

/-! ## 70_reset_and_hazards.md -/

/-- R280: the value reset gives every state element, for every START_ADDRESS and FONT_ROM: pc at the start address, the
font in the lowest 80 bytes of RAM. The reset transaction does this to any machine. The outcome port and the draw count
are the model's (logs 5, 6). -/
def Obligations.ResetSetsEveryElement : Prop :=
  ∀ (start : Word) (font : Vector Byte 80), let s := State.new start font
    (∀ a, s.ram.byte a = if h : a < 80 then font[a] else 0x00#8) ∧ (∀ k, s.reg k = 0x00#8) ∧ s.i = 0x0000#16 ∧
    s.sp.val = 0 ∧ (∀ j : Fin 16, s.stack[j] = 0x0000#16) ∧ s.dt = 0x00#8 ∧ s.st = 0x00#8 ∧
    (∀ py px, pixel s.fb py px = false) ∧ s.pc = start ∧ s.opcode = 0x0000#16 ∧ s.frameReady = false ∧
    (∀ k : Fin 16, s.keys[k] = false) ∧ s.halted = false ∧ s.faultCause = .none ∧ s.faultPc = 0x0000#16 ∧
    s.faultWord = 0x0000#16 ∧ s.faultAddr = 0x0000#16 ∧ State.reset = State.new 0x200#16 Config.fontRom ∧
    ∀ u : State, u.host (.rst start font) = .next { s with draws := u.draws }

/-- R283, R284: an image of at most 3584 bytes goes to 0x200 and up and changes nothing else; a longer one is
refused whole. -/
def Obligations.LoadCopiesTheImage : Prop :=
  ∀ s bytes,
    (bytes.length ≤ 3584 → s.ram.wf → ∃ t, s.load bytes = .next t ∧
      (∀ k, k < bytes.length → t.ram.byte (0x200 + k) = bytes[k]!) ∧
      (∀ a, a < 0x200 ∨ 0x200 + bytes.length ≤ a → t.ram.byte a = s.ram.byte a) ∧
      KeepsAllBut [.ram] s t) ∧
    (bytes.length > 3584 → s.load bytes = .refused .imageTooLong)

/-- R291, R292: the keyboard port sets each key from its bit and the clear clears the frame-ready flag, and
neither changes anything else. -/
def Obligations.HostPortsTouchOnlyTheirLatch : Prop :=
  ∀ s,
    (∀ down, ∃ t, s.host (.keyDown down) = .next t ∧ (∀ k : Fin 16, t.keys[k] = down.getLsbD k.val) ∧
      KeepsAllBut [.keys] s t) ∧
    ∃ t, s.host .frameReadyClr = .next t ∧ t.frameReady = false ∧ KeepsAllBut [.frameReady] s t

/-! ## The order of a draw's pixels (44_display.md) -/

/-- R216: visiting the places of a sprite in any order gives the draw's framebuffer and collision. -/
def Obligations.PixelOrderDoesNotMatter : Prop :=
  ∀ (s : State) (x y : Reg) (n : Nat) (places : List (Nat × Nat)), n < 16 →
    places.Perm ((List.range n).flatMap fun r => (List.range 8).map fun c => (r, c)) →
    places.foldl (fun cv p => drawBit (spriteRow (s.reg y).toNat p.1) (s.reg x).toNat
        (s.ram.byte (s.i.toNat + p.1)) cv p.2) (s.fb, false) =
      s.drawSprite x y n
end

