-- ==== Sys2Proof/Laws/Decode.lean ====
section
/-! SUPPORT. The fields of a word against the masks of the opcode map and the formats of the encoder. -/

namespace Sys2Proof

/-! ### Masks keep fields -/

theorem and_F000 (w : Word) : w &&& 0xF000#16 = fieldF w ++ 0x000#12 := by
  refine BitVec.eq_of_getLsbD_eq fun j hj => ?_
  simp only [fieldF, BitVec.getLsbD_and, BitVec.getLsbD_append, BitVec.getLsbD_extractLsb']
  interval_cases j <;> simp

theorem and_F0FF (w : Word) : w &&& 0xF0FF#16 = fieldF w ++ (0x0#4 ++ fieldNN w) := by
  refine BitVec.eq_of_getLsbD_eq fun j hj => ?_
  simp only [fieldF, fieldNN, BitVec.getLsbD_and, BitVec.getLsbD_append, BitVec.getLsbD_extractLsb']
  interval_cases j <;> simp

theorem and_F00F (w : Word) : w &&& 0xF00F#16 = fieldF w ++ (0x00#8 ++ fieldN w) := by
  refine BitVec.eq_of_getLsbD_eq fun j hj => ?_
  simp only [fieldF, fieldN, BitVec.getLsbD_and, BitVec.getLsbD_append, BitVec.getLsbD_extractLsb']
  interval_cases j <;> simp

theorem and_FFF0 (w : Word) :
    w &&& 0xFFF0#16 = fieldF w ++ (regField (fieldX w) ++ (regField (fieldY w) ++ 0x0#4)) := by
  refine BitVec.eq_of_getLsbD_eq fun j hj => ?_
  simp only [fieldF, fieldX, fieldY, regField, BitVec.ofFin_toFin, BitVec.getLsbD_and, BitVec.getLsbD_append,
    BitVec.getLsbD_extractLsb']
  interval_cases j <;> simp

/-! ### A word is its fields in each format -/

theorem formatA_fields (w : Word) : formatA (fieldF w) (fieldNNN w) = w := by
  refine BitVec.eq_of_getLsbD_eq fun j hj => ?_
  simp only [formatA, fieldF, fieldNNN, BitVec.getLsbD_append, BitVec.getLsbD_extractLsb']
  interval_cases j <;> simp

theorem formatXB_fields (w : Word) : formatXB (fieldF w) (fieldX w) (fieldNN w) = w := by
  refine BitVec.eq_of_getLsbD_eq fun j hj => ?_
  simp only [formatXB, fieldF, fieldX, fieldNN, regField, BitVec.ofFin_toFin, BitVec.getLsbD_append,
    BitVec.getLsbD_extractLsb']
  interval_cases j <;> simp

theorem formatXYN_fields (w : Word) : formatXYN (fieldF w) (fieldX w) (fieldY w) (fieldN w) = w := by
  refine BitVec.eq_of_getLsbD_eq fun j hj => ?_
  simp only [formatXYN, fieldF, fieldX, fieldY, fieldN, regField, BitVec.ofFin_toFin, BitVec.getLsbD_append,
    BitVec.getLsbD_extractLsb']
  interval_cases j <;> simp

/-! ### The fields of each format are what was put in -/

@[simp] theorem fieldF_formatA (f : BitVec 4) (a : Addr) : fieldF (formatA f a) = f := by
  ext j hj
  simp only [formatA, fieldF, BitVec.getElem_extractLsb', BitVec.getLsbD_append]
  interval_cases j <;> simp [BitVec.getLsbD_eq_getElem]

@[simp] theorem fieldNNN_formatA (f : BitVec 4) (a : Addr) : fieldNNN (formatA f a) = a := by
  ext j hj
  simp only [formatA, fieldNNN, BitVec.getElem_extractLsb', BitVec.getLsbD_append]
  interval_cases j <;> simp [BitVec.getLsbD_eq_getElem]

@[simp] theorem fieldF_formatXB (f : BitVec 4) (x : Reg) (b : Byte) : fieldF (formatXB f x b) = f := by
  ext j hj
  simp only [formatXB, fieldF, BitVec.getElem_extractLsb', BitVec.getLsbD_append]
  interval_cases j <;> simp [BitVec.getLsbD_eq_getElem]

@[simp] theorem fieldX_formatXB (f : BitVec 4) (x : Reg) (b : Byte) : fieldX (formatXB f x b) = x := by
  suffices h : (formatXB f x b).extractLsb' 8 4 = regField x by simp only [fieldX, h, regField]
  ext j hj
  simp only [formatXB, BitVec.getElem_extractLsb', BitVec.getLsbD_append]
  interval_cases j <;> simp [BitVec.getLsbD_eq_getElem]

@[simp] theorem fieldNN_formatXB (f : BitVec 4) (x : Reg) (b : Byte) : fieldNN (formatXB f x b) = b := by
  ext j hj
  simp only [formatXB, fieldNN, BitVec.getElem_extractLsb', BitVec.getLsbD_append]
  interval_cases j <;> simp [BitVec.getLsbD_eq_getElem]

@[simp] theorem fieldF_formatXYN (f n : BitVec 4) (x y : Reg) : fieldF (formatXYN f x y n) = f := by
  ext j hj
  simp only [formatXYN, fieldF, BitVec.getElem_extractLsb', BitVec.getLsbD_append]
  interval_cases j <;> simp [BitVec.getLsbD_eq_getElem]

@[simp] theorem fieldX_formatXYN (f n : BitVec 4) (x y : Reg) : fieldX (formatXYN f x y n) = x := by
  suffices h : (formatXYN f x y n).extractLsb' 8 4 = regField x by simp only [fieldX, h, regField]
  ext j hj
  simp only [formatXYN, BitVec.getElem_extractLsb', BitVec.getLsbD_append]
  interval_cases j <;> simp [BitVec.getLsbD_eq_getElem]

@[simp] theorem fieldY_formatXYN (f n : BitVec 4) (x y : Reg) : fieldY (formatXYN f x y n) = y := by
  suffices h : (formatXYN f x y n).extractLsb' 4 4 = regField y by simp only [fieldY, h, regField]
  ext j hj
  simp only [formatXYN, BitVec.getElem_extractLsb', BitVec.getLsbD_append]
  interval_cases j <;> simp [BitVec.getLsbD_eq_getElem]

@[simp] theorem fieldN_formatXYN (f n : BitVec 4) (x y : Reg) : fieldN (formatXYN f x y n) = n := by
  ext j hj
  simp only [formatXYN, fieldN, BitVec.getElem_extractLsb', BitVec.getLsbD_append]
  interval_cases j <;> simp [BitVec.getLsbD_eq_getElem]

/-! ### The masks on the formats -/

@[simp] theorem formatA_and_F000 (f : BitVec 4) (a : Addr) : formatA f a &&& 0xF000#16 = f ++ 0x000#12 := by
  simp [and_F000]

@[simp] theorem formatXB_and_F000 (f : BitVec 4) (x : Reg) (b : Byte) :
    formatXB f x b &&& 0xF000#16 = f ++ 0x000#12 := by simp [and_F000]

@[simp] theorem formatXB_and_F0FF (f : BitVec 4) (x : Reg) (b : Byte) :
    formatXB f x b &&& 0xF0FF#16 = f ++ (0x0#4 ++ b) := by simp [and_F0FF]

@[simp] theorem formatXYN_and_F000 (f n : BitVec 4) (x y : Reg) :
    formatXYN f x y n &&& 0xF000#16 = f ++ 0x000#12 := by simp [and_F000]

@[simp] theorem formatXYN_and_F00F (f n : BitVec 4) (x y : Reg) :
    formatXYN f x y n &&& 0xF00F#16 = f ++ (0x00#8 ++ n) := by simp [and_F00F]

end Sys2Proof
end

