-- ==== Sys2Proof/Laws/Memory.lean ====
section
/-! SUPPORT. RAM: read after write, the bytes it starts with, the frame of a write, the canonical form, and the range check. -/

namespace Sys2Proof.Machine

namespace Memory

/-! ### One cell -/

theorem mem_cell {a : Nat} {b : Byte} {c : Host.Cell} : c ∈ cell a b ↔ b ≠ unlisted ∧ c = (a, b) := by
  unfold cell
  split <;> simp_all

theorem byte_cell_append_other {a a' : Nat} (b : Byte) (m : Memory) (h : a' ≠ a) :
    byte (cell a b ++ m) a' = byte m a' := by
  unfold cell
  split <;> simp [byte, h]

/-- A cell put before cells of other addresses gives its own byte. -/
theorem byte_cell_append_same {a : Nat} (b : Byte) (m : Memory) (h : ∀ c ∈ m, c.1 ≠ a) :
    byte (cell a b ++ m) a = b := by
  have absent : ∀ m : Memory, (∀ c ∈ m, c.1 ≠ a) → byte m a = unlisted := by
    intro m
    induction m with
    | nil => intro _; rfl
    | cons c m ih =>
      intro h
      have hc : a ≠ c.1 := (h c (by simp)).symm
      simp only [byte, if_neg hc]
      exact ih fun d hd => h d (by simp [hd])
  unfold cell
  split
  case isTrue e => simp only [List.nil_append, absent m h, e]
  case isFalse => simp [byte]

/-! ### write -/

/-- A write touches one byte, whatever the form of the memory. -/
theorem byte_write_other (m : Memory) {a a' : Nat} (b : Byte) (h : a' ≠ a) : (m.write a b).byte a' = m.byte a' := by
  induction m with
  | nil => simpa [write, byte] using byte_cell_append_other b [] h
  | cons c m ih =>
    simp only [write]
    split
    case isTrue => exact byte_cell_append_other b _ h
    case isFalse =>
      split
      case isTrue e => rw [byte_cell_append_other b _ h]; simp [byte, ← e, h]
      case isFalse => simp only [byte, ih]

/-- The cells after a write are the written one and old ones. -/
theorem mem_write {m : Memory} {a : Nat} {b : Byte} {c : Host.Cell} (h : c ∈ m.write a b) :
    (c = (a, b) ∧ b ≠ unlisted) ∨ c ∈ m := by
  induction m with
  | nil => exact .inl (mem_cell.1 h).symm
  | cons d m ih =>
    simp only [write] at h
    split at h
    · rcases List.mem_append.1 h with h | h
      · exact .inl (mem_cell.1 h).symm
      · exact .inr h
    · split at h
      · rcases List.mem_append.1 h with h | h
        · exact .inl (mem_cell.1 h).symm
        · exact .inr (by simp [h])
      · rcases List.mem_cons.1 h with h | h
        · exact .inr (by simp [h])
        · exact (ih h).imp id fun h => by simp [h]

/-- In a canonical memory the byte written is the byte read. -/
theorem byte_write_same {m : Memory} (hm : m.wf) (a : Nat) (b : Byte) : (m.write a b).byte a = b := by
  induction m with
  | nil => simpa [write] using byte_cell_append_same b [] (a := a) (by simp)
  | cons c m ih =>
    obtain ⟨hs, hc⟩ := hm
    obtain ⟨hlt, hs'⟩ := List.pairwise_cons.1 hs
    simp only [write]
    split
    case isTrue h =>
      refine byte_cell_append_same b _ fun d hd => ?_
      rcases List.mem_cons.1 hd with rfl | hd
      · exact (Nat.ne_of_lt h).symm
      · exact (Nat.ne_of_lt (Nat.lt_trans h (hlt d hd))).symm
    case isFalse h =>
      split
      case isTrue e =>
        exact byte_cell_append_same b _ fun d hd => by have := hlt d hd; omega
      case isFalse e =>
        simp only [byte, if_neg e]
        exact ih ⟨hs', fun d hd => hc d (by simp [hd])⟩

/-- A write to a RAM address keeps the canonical form. -/
theorem write_wf {m : Memory} (hm : m.wf) {a : Nat} (b : Byte) (ha : a < Config.memSize) : (m.write a b).wf := by
  refine ⟨?_, fun c hc => ?_⟩
  · have hs := hm.1
    clear hm
    induction m with
    | nil => unfold write cell; split <;> simp
    | cons d m ih =>
      obtain ⟨hlt, hs'⟩ := List.pairwise_cons.1 hs
      simp only [write]
      split
      case isTrue h =>
        refine List.pairwise_append.2 ⟨by unfold cell; split <;> simp, hs, fun c hc e he => ?_⟩
        obtain ⟨-, rfl⟩ := mem_cell.1 hc
        rcases List.mem_cons.1 he with rfl | he
        · exact h
        · exact Nat.lt_trans h (hlt e he)
      case isFalse h =>
        split
        case isTrue e =>
          refine List.pairwise_append.2 ⟨by unfold cell; split <;> simp, hs', fun c hc f hf => ?_⟩
          obtain ⟨-, rfl⟩ := mem_cell.1 hc
          exact e ▸ hlt f hf
        case isFalse e =>
          refine List.pairwise_cons.2 ⟨fun f hf => ?_, ih hs'⟩
          rcases mem_write hf with ⟨rfl, -⟩ | hf
          · exact Nat.lt_of_le_of_ne (Nat.le_of_not_lt h) (Ne.symm e)
          · exact hlt f hf
  · rcases mem_write hc with ⟨rfl, hb⟩ | hc
    · exact ⟨ha, hb⟩
    · exact hm.2 c hc

/-! ### writeBytes and readBytes -/

theorem byte_writeBytes_outside (bs : List Byte) :
    ∀ (m : Memory) (a a' : Nat), a' < a ∨ a + bs.length ≤ a' → (m.writeBytes a bs).byte a' = m.byte a' := by
  induction bs with
  | nil => intros; rfl
  | cons b bs ih =>
    intro m a a' h
    simp only [writeBytes, List.length_cons] at h ⊢
    rw [ih _ _ _ (by omega), byte_write_other m b (by omega)]

theorem writeBytes_wf (bs : List Byte) :
    ∀ (m : Memory) (a : Nat), m.wf → a + bs.length ≤ Config.memSize → (m.writeBytes a bs).wf := by
  induction bs with
  | nil => intro m a hm _; exact hm
  | cons b bs ih =>
    intro m a hm h
    simp only [List.length_cons] at h
    exact ih _ _ (write_wf hm b (by omega)) (by omega)

theorem byte_writeBytes_inside (bs : List Byte) :
    ∀ (m : Memory) (a : Nat), m.wf → a + bs.length ≤ Config.memSize →
      ∀ (k : Nat) (h : k < bs.length), (m.writeBytes a bs).byte (a + k) = bs[k] := by
  induction bs with
  | nil => intro m a _ _ k h; exact absurd h (by simp)
  | cons b bs ih =>
    intro m a hm hb k h
    simp only [List.length_cons] at hb h
    cases k with
    | zero =>
      simp only [writeBytes, Nat.add_zero, List.getElem_cons_zero]
      rw [byte_writeBytes_outside bs _ _ _ (by omega), byte_write_same hm]
    | succ k =>
      have := ih (m.write a b) (a + 1) (write_wf hm b (by omega)) (by omega) k (by omega)
      simpa [writeBytes, Nat.add_comm, Nat.add_left_comm] using this

/-! ### ofBytes -/

theorem mem_ofBytes {bs : List Byte} : ∀ {a : Nat} {c : Host.Cell}, c ∈ ofBytes a bs →
    a ≤ c.1 ∧ c.1 < a + bs.length ∧ c.2 ≠ unlisted := by
  induction bs with
  | nil => intro a c h; cases h
  | cons b bs ih =>
    intro a c h
    simp only [List.length_cons]
    rcases List.mem_append.1 h with h | h
    · obtain ⟨hb, rfl⟩ := mem_cell.1 h
      exact ⟨Nat.le_refl _, by omega, hb⟩
    · obtain ⟨h1, h2, h3⟩ := ih h
      exact ⟨by omega, by omega, h3⟩

/-- The canonical form, from the bytes at the start of RAM or anywhere they fit. -/
theorem ofBytes_wf (bs : List Byte) (a : Nat) (h : a + bs.length ≤ Config.memSize) : (ofBytes a bs).wf := by
  refine ⟨?_, fun c hc => ⟨by have := mem_ofBytes hc; omega, (mem_ofBytes hc).2.2⟩⟩
  clear h
  induction bs generalizing a with
  | nil => exact .nil
  | cons b bs ih =>
    refine List.pairwise_append.2 ⟨by unfold cell; split <;> simp, ih (a + 1), fun c hc d hd => ?_⟩
    obtain ⟨-, rfl⟩ := mem_cell.1 hc
    exact (mem_ofBytes hd).1

theorem byte_ofBytes_inside (bs : List Byte) :
    ∀ (a k : Nat) (h : k < bs.length), (ofBytes a bs).byte (a + k) = bs[k] := by
  induction bs with
  | nil => intro a k h; exact absurd h (by simp)
  | cons b bs ih =>
    intro a k h
    cases k with
    | zero => exact byte_cell_append_same b _ fun c hc => by have := mem_ofBytes hc; omega
    | succ k =>
      rw [ofBytes, byte_cell_append_other b _ (by omega), ← Nat.add_assoc, Nat.add_right_comm]
      exact ih (a + 1) k (by simpa using h)

theorem byte_ofBytes_outside (bs : List Byte) :
    ∀ (a a' : Nat), a' < a ∨ a + bs.length ≤ a' → (ofBytes a bs).byte a' = unlisted := by
  induction bs with
  | nil => intros; rfl
  | cons b bs ih =>
    intro a a' h
    simp only [List.length_cons] at h
    rw [ofBytes, byte_cell_append_other b _ (by omega), ih _ _ (by omega)]

@[simp] theorem length_readBytes (m : Memory) (a n : Nat) : (m.readBytes a n).length = n := by simp [readBytes]

@[simp] theorem getElem_readBytes (m : Memory) (a n k : Nat) (h : k < (m.readBytes a n).length) :
    (m.readBytes a n)[k] = m.byte (a + k) := by simp [readBytes]

end Memory

/-! ### The range check -/

/-- The check passes exactly when no byte is asked for or the last one is in RAM. -/
theorem firstBad_eq_none {a n : Nat} : firstBad a n = none ↔ n = 0 ∨ a + n ≤ 0x1000 := by
  unfold firstBad Config.memSize
  split
  case isTrue h => simp only [reduceCtorEq, false_iff]; omega
  case isFalse h => simp only [true_iff]; omega

/-- A failing check names the lowest address outside RAM. -/
theorem firstBad_eq_some {a n b : Nat} :
    firstBad a n = some b ↔ (0 < n ∧ a + n > 0x1000) ∧ b = max a 0x1000 := by
  unfold firstBad Config.memSize
  split
  case isTrue h => simp [h, eq_comm]
  case isFalse h => simp [h]

end Sys2Proof.Machine
end

