-- ==== Sys2Proof/Laws/State.lean ====
section
/-! SUPPORT. For each named update of State, what each field is after it: one lemma per field per update, so that
no later proof unfolds a record update. -/

namespace Sys2Proof.Machine.State

variable (s : State)

/-! ### setReg -/

@[simp] theorem setReg_ram (x : Reg) (b : Byte) : (s.setReg x b).ram = s.ram := rfl
@[simp] theorem setReg_v (x : Reg) (b : Byte) : (s.setReg x b).v = s.v.set x b := rfl
@[simp] theorem setReg_i (x : Reg) (b : Byte) : (s.setReg x b).i = s.i := rfl
@[simp] theorem setReg_pc (x : Reg) (b : Byte) : (s.setReg x b).pc = s.pc := rfl
@[simp] theorem setReg_sp (x : Reg) (b : Byte) : (s.setReg x b).sp = s.sp := rfl
@[simp] theorem setReg_stack (x : Reg) (b : Byte) : (s.setReg x b).stack = s.stack := rfl
@[simp] theorem setReg_opcode (x : Reg) (b : Byte) : (s.setReg x b).opcode = s.opcode := rfl
@[simp] theorem setReg_dt (x : Reg) (b : Byte) : (s.setReg x b).dt = s.dt := rfl
@[simp] theorem setReg_st (x : Reg) (b : Byte) : (s.setReg x b).st = s.st := rfl
@[simp] theorem setReg_fb (x : Reg) (b : Byte) : (s.setReg x b).fb = s.fb := rfl
@[simp] theorem setReg_frameReady (x : Reg) (b : Byte) : (s.setReg x b).frameReady = s.frameReady := rfl
@[simp] theorem setReg_keys (x : Reg) (b : Byte) : (s.setReg x b).keys = s.keys := rfl
@[simp] theorem setReg_halted (x : Reg) (b : Byte) : (s.setReg x b).halted = s.halted := rfl
@[simp] theorem setReg_faultCause (x : Reg) (b : Byte) : (s.setReg x b).faultCause = s.faultCause := rfl
@[simp] theorem setReg_faultPc (x : Reg) (b : Byte) : (s.setReg x b).faultPc = s.faultPc := rfl
@[simp] theorem setReg_faultWord (x : Reg) (b : Byte) : (s.setReg x b).faultWord = s.faultWord := rfl
@[simp] theorem setReg_faultAddr (x : Reg) (b : Byte) : (s.setReg x b).faultAddr = s.faultAddr := rfl
@[simp] theorem setReg_stepOutcome (x : Reg) (b : Byte) : (s.setReg x b).stepOutcome = s.stepOutcome := rfl
@[simp] theorem setReg_draws (x : Reg) (b : Byte) : (s.setReg x b).draws = s.draws := rfl

/-! ### setRegs -/

@[simp] theorem setRegs_ram (v : Vector Byte 16) : (s.setRegs v).ram = s.ram := rfl
@[simp] theorem setRegs_v (v : Vector Byte 16) : (s.setRegs v).v = v := rfl
@[simp] theorem setRegs_i (v : Vector Byte 16) : (s.setRegs v).i = s.i := rfl
@[simp] theorem setRegs_pc (v : Vector Byte 16) : (s.setRegs v).pc = s.pc := rfl
@[simp] theorem setRegs_sp (v : Vector Byte 16) : (s.setRegs v).sp = s.sp := rfl
@[simp] theorem setRegs_stack (v : Vector Byte 16) : (s.setRegs v).stack = s.stack := rfl
@[simp] theorem setRegs_opcode (v : Vector Byte 16) : (s.setRegs v).opcode = s.opcode := rfl
@[simp] theorem setRegs_dt (v : Vector Byte 16) : (s.setRegs v).dt = s.dt := rfl
@[simp] theorem setRegs_st (v : Vector Byte 16) : (s.setRegs v).st = s.st := rfl
@[simp] theorem setRegs_fb (v : Vector Byte 16) : (s.setRegs v).fb = s.fb := rfl
@[simp] theorem setRegs_frameReady (v : Vector Byte 16) : (s.setRegs v).frameReady = s.frameReady := rfl
@[simp] theorem setRegs_keys (v : Vector Byte 16) : (s.setRegs v).keys = s.keys := rfl
@[simp] theorem setRegs_halted (v : Vector Byte 16) : (s.setRegs v).halted = s.halted := rfl
@[simp] theorem setRegs_faultCause (v : Vector Byte 16) : (s.setRegs v).faultCause = s.faultCause := rfl
@[simp] theorem setRegs_faultPc (v : Vector Byte 16) : (s.setRegs v).faultPc = s.faultPc := rfl
@[simp] theorem setRegs_faultWord (v : Vector Byte 16) : (s.setRegs v).faultWord = s.faultWord := rfl
@[simp] theorem setRegs_faultAddr (v : Vector Byte 16) : (s.setRegs v).faultAddr = s.faultAddr := rfl
@[simp] theorem setRegs_stepOutcome (v : Vector Byte 16) : (s.setRegs v).stepOutcome = s.stepOutcome := rfl
@[simp] theorem setRegs_draws (v : Vector Byte 16) : (s.setRegs v).draws = s.draws := rfl

/-! ### setRegFlag -/

@[simp] theorem setRegFlag_ram (x : Reg) (r f : Byte) : (s.setRegFlag x r f).ram = s.ram := rfl
@[simp] theorem setRegFlag_v (x : Reg) (r f : Byte) : (s.setRegFlag x r f).v = (s.v.set x r).set vF f := rfl
@[simp] theorem setRegFlag_i (x : Reg) (r f : Byte) : (s.setRegFlag x r f).i = s.i := rfl
@[simp] theorem setRegFlag_pc (x : Reg) (r f : Byte) : (s.setRegFlag x r f).pc = s.pc := rfl
@[simp] theorem setRegFlag_sp (x : Reg) (r f : Byte) : (s.setRegFlag x r f).sp = s.sp := rfl
@[simp] theorem setRegFlag_stack (x : Reg) (r f : Byte) : (s.setRegFlag x r f).stack = s.stack := rfl
@[simp] theorem setRegFlag_opcode (x : Reg) (r f : Byte) : (s.setRegFlag x r f).opcode = s.opcode := rfl
@[simp] theorem setRegFlag_dt (x : Reg) (r f : Byte) : (s.setRegFlag x r f).dt = s.dt := rfl
@[simp] theorem setRegFlag_st (x : Reg) (r f : Byte) : (s.setRegFlag x r f).st = s.st := rfl
@[simp] theorem setRegFlag_fb (x : Reg) (r f : Byte) : (s.setRegFlag x r f).fb = s.fb := rfl
@[simp] theorem setRegFlag_frameReady (x : Reg) (r f : Byte) : (s.setRegFlag x r f).frameReady = s.frameReady := rfl
@[simp] theorem setRegFlag_keys (x : Reg) (r f : Byte) : (s.setRegFlag x r f).keys = s.keys := rfl
@[simp] theorem setRegFlag_halted (x : Reg) (r f : Byte) : (s.setRegFlag x r f).halted = s.halted := rfl
@[simp] theorem setRegFlag_faultCause (x : Reg) (r f : Byte) : (s.setRegFlag x r f).faultCause = s.faultCause := rfl
@[simp] theorem setRegFlag_faultPc (x : Reg) (r f : Byte) : (s.setRegFlag x r f).faultPc = s.faultPc := rfl
@[simp] theorem setRegFlag_faultWord (x : Reg) (r f : Byte) : (s.setRegFlag x r f).faultWord = s.faultWord := rfl
@[simp] theorem setRegFlag_faultAddr (x : Reg) (r f : Byte) : (s.setRegFlag x r f).faultAddr = s.faultAddr := rfl
@[simp] theorem setRegFlag_stepOutcome (x : Reg) (r f : Byte) : (s.setRegFlag x r f).stepOutcome = s.stepOutcome := rfl
@[simp] theorem setRegFlag_draws (x : Reg) (r f : Byte) : (s.setRegFlag x r f).draws = s.draws := rfl

/-! ### setIndex -/

@[simp] theorem setIndex_ram (w : Word) : (s.setIndex w).ram = s.ram := rfl
@[simp] theorem setIndex_v (w : Word) : (s.setIndex w).v = s.v := rfl
@[simp] theorem setIndex_i (w : Word) : (s.setIndex w).i = w := rfl
@[simp] theorem setIndex_pc (w : Word) : (s.setIndex w).pc = s.pc := rfl
@[simp] theorem setIndex_sp (w : Word) : (s.setIndex w).sp = s.sp := rfl
@[simp] theorem setIndex_stack (w : Word) : (s.setIndex w).stack = s.stack := rfl
@[simp] theorem setIndex_opcode (w : Word) : (s.setIndex w).opcode = s.opcode := rfl
@[simp] theorem setIndex_dt (w : Word) : (s.setIndex w).dt = s.dt := rfl
@[simp] theorem setIndex_st (w : Word) : (s.setIndex w).st = s.st := rfl
@[simp] theorem setIndex_fb (w : Word) : (s.setIndex w).fb = s.fb := rfl
@[simp] theorem setIndex_frameReady (w : Word) : (s.setIndex w).frameReady = s.frameReady := rfl
@[simp] theorem setIndex_keys (w : Word) : (s.setIndex w).keys = s.keys := rfl
@[simp] theorem setIndex_halted (w : Word) : (s.setIndex w).halted = s.halted := rfl
@[simp] theorem setIndex_faultCause (w : Word) : (s.setIndex w).faultCause = s.faultCause := rfl
@[simp] theorem setIndex_faultPc (w : Word) : (s.setIndex w).faultPc = s.faultPc := rfl
@[simp] theorem setIndex_faultWord (w : Word) : (s.setIndex w).faultWord = s.faultWord := rfl
@[simp] theorem setIndex_faultAddr (w : Word) : (s.setIndex w).faultAddr = s.faultAddr := rfl
@[simp] theorem setIndex_stepOutcome (w : Word) : (s.setIndex w).stepOutcome = s.stepOutcome := rfl
@[simp] theorem setIndex_draws (w : Word) : (s.setIndex w).draws = s.draws := rfl
@[simp] theorem setIndex_reg (w : Word) (k : Reg) : (s.setIndex w).reg k = s.reg k := rfl

/-! ### jump -/

@[simp] theorem jump_ram (w : Word) : (s.jump w).ram = s.ram := rfl
@[simp] theorem jump_v (w : Word) : (s.jump w).v = s.v := rfl
@[simp] theorem jump_i (w : Word) : (s.jump w).i = s.i := rfl
@[simp] theorem jump_pc (w : Word) : (s.jump w).pc = w := rfl
@[simp] theorem jump_sp (w : Word) : (s.jump w).sp = s.sp := rfl
@[simp] theorem jump_stack (w : Word) : (s.jump w).stack = s.stack := rfl
@[simp] theorem jump_opcode (w : Word) : (s.jump w).opcode = s.opcode := rfl
@[simp] theorem jump_dt (w : Word) : (s.jump w).dt = s.dt := rfl
@[simp] theorem jump_st (w : Word) : (s.jump w).st = s.st := rfl
@[simp] theorem jump_fb (w : Word) : (s.jump w).fb = s.fb := rfl
@[simp] theorem jump_frameReady (w : Word) : (s.jump w).frameReady = s.frameReady := rfl
@[simp] theorem jump_keys (w : Word) : (s.jump w).keys = s.keys := rfl
@[simp] theorem jump_halted (w : Word) : (s.jump w).halted = s.halted := rfl
@[simp] theorem jump_faultCause (w : Word) : (s.jump w).faultCause = s.faultCause := rfl
@[simp] theorem jump_faultPc (w : Word) : (s.jump w).faultPc = s.faultPc := rfl
@[simp] theorem jump_faultWord (w : Word) : (s.jump w).faultWord = s.faultWord := rfl
@[simp] theorem jump_faultAddr (w : Word) : (s.jump w).faultAddr = s.faultAddr := rfl
@[simp] theorem jump_stepOutcome (w : Word) : (s.jump w).stepOutcome = s.stepOutcome := rfl
@[simp] theorem jump_draws (w : Word) : (s.jump w).draws = s.draws := rfl
@[simp] theorem jump_reg (w : Word) (k : Reg) : (s.jump w).reg k = s.reg k := rfl

/-! ### advance -/

@[simp] theorem advance_ram : s.advance.ram = s.ram := rfl
@[simp] theorem advance_v : s.advance.v = s.v := rfl
@[simp] theorem advance_i : s.advance.i = s.i := rfl
@[simp] theorem advance_pc : s.advance.pc = s.pc + 2#16 := rfl
@[simp] theorem advance_sp : s.advance.sp = s.sp := rfl
@[simp] theorem advance_stack : s.advance.stack = s.stack := rfl
@[simp] theorem advance_opcode : s.advance.opcode = s.opcode := rfl
@[simp] theorem advance_dt : s.advance.dt = s.dt := rfl
@[simp] theorem advance_st : s.advance.st = s.st := rfl
@[simp] theorem advance_fb : s.advance.fb = s.fb := rfl
@[simp] theorem advance_frameReady : s.advance.frameReady = s.frameReady := rfl
@[simp] theorem advance_keys : s.advance.keys = s.keys := rfl
@[simp] theorem advance_halted : s.advance.halted = s.halted := rfl
@[simp] theorem advance_faultCause : s.advance.faultCause = s.faultCause := rfl
@[simp] theorem advance_faultPc : s.advance.faultPc = s.faultPc := rfl
@[simp] theorem advance_faultWord : s.advance.faultWord = s.faultWord := rfl
@[simp] theorem advance_faultAddr : s.advance.faultAddr = s.faultAddr := rfl
@[simp] theorem advance_stepOutcome : s.advance.stepOutcome = s.stepOutcome := rfl
@[simp] theorem advance_draws : s.advance.draws = s.draws := rfl
@[simp] theorem advance_reg (k : Reg) : s.advance.reg k = s.reg k := rfl

/-! ### skipIf -/

@[simp] theorem skipIf_ram (c : Bool) : (s.skipIf c).ram = s.ram := rfl
@[simp] theorem skipIf_v (c : Bool) : (s.skipIf c).v = s.v := rfl
@[simp] theorem skipIf_i (c : Bool) : (s.skipIf c).i = s.i := rfl
@[simp] theorem skipIf_pc (c : Bool) : (s.skipIf c).pc = if c then s.pc + 4#16 else s.pc + 2#16 := rfl
@[simp] theorem skipIf_sp (c : Bool) : (s.skipIf c).sp = s.sp := rfl
@[simp] theorem skipIf_stack (c : Bool) : (s.skipIf c).stack = s.stack := rfl
@[simp] theorem skipIf_opcode (c : Bool) : (s.skipIf c).opcode = s.opcode := rfl
@[simp] theorem skipIf_dt (c : Bool) : (s.skipIf c).dt = s.dt := rfl
@[simp] theorem skipIf_st (c : Bool) : (s.skipIf c).st = s.st := rfl
@[simp] theorem skipIf_fb (c : Bool) : (s.skipIf c).fb = s.fb := rfl
@[simp] theorem skipIf_frameReady (c : Bool) : (s.skipIf c).frameReady = s.frameReady := rfl
@[simp] theorem skipIf_keys (c : Bool) : (s.skipIf c).keys = s.keys := rfl
@[simp] theorem skipIf_halted (c : Bool) : (s.skipIf c).halted = s.halted := rfl
@[simp] theorem skipIf_faultCause (c : Bool) : (s.skipIf c).faultCause = s.faultCause := rfl
@[simp] theorem skipIf_faultPc (c : Bool) : (s.skipIf c).faultPc = s.faultPc := rfl
@[simp] theorem skipIf_faultWord (c : Bool) : (s.skipIf c).faultWord = s.faultWord := rfl
@[simp] theorem skipIf_faultAddr (c : Bool) : (s.skipIf c).faultAddr = s.faultAddr := rfl
@[simp] theorem skipIf_stepOutcome (c : Bool) : (s.skipIf c).stepOutcome = s.stepOutcome := rfl
@[simp] theorem skipIf_draws (c : Bool) : (s.skipIf c).draws = s.draws := rfl
@[simp] theorem skipIf_reg (c : Bool) (k : Reg) : (s.skipIf c).reg k = s.reg k := rfl

/-! ### setRam -/

@[simp] theorem setRam_ram (m : Memory) : (s.setRam m).ram = m := rfl
@[simp] theorem setRam_v (m : Memory) : (s.setRam m).v = s.v := rfl
@[simp] theorem setRam_i (m : Memory) : (s.setRam m).i = s.i := rfl
@[simp] theorem setRam_pc (m : Memory) : (s.setRam m).pc = s.pc := rfl
@[simp] theorem setRam_sp (m : Memory) : (s.setRam m).sp = s.sp := rfl
@[simp] theorem setRam_stack (m : Memory) : (s.setRam m).stack = s.stack := rfl
@[simp] theorem setRam_opcode (m : Memory) : (s.setRam m).opcode = s.opcode := rfl
@[simp] theorem setRam_dt (m : Memory) : (s.setRam m).dt = s.dt := rfl
@[simp] theorem setRam_st (m : Memory) : (s.setRam m).st = s.st := rfl
@[simp] theorem setRam_fb (m : Memory) : (s.setRam m).fb = s.fb := rfl
@[simp] theorem setRam_frameReady (m : Memory) : (s.setRam m).frameReady = s.frameReady := rfl
@[simp] theorem setRam_keys (m : Memory) : (s.setRam m).keys = s.keys := rfl
@[simp] theorem setRam_halted (m : Memory) : (s.setRam m).halted = s.halted := rfl
@[simp] theorem setRam_faultCause (m : Memory) : (s.setRam m).faultCause = s.faultCause := rfl
@[simp] theorem setRam_faultPc (m : Memory) : (s.setRam m).faultPc = s.faultPc := rfl
@[simp] theorem setRam_faultWord (m : Memory) : (s.setRam m).faultWord = s.faultWord := rfl
@[simp] theorem setRam_faultAddr (m : Memory) : (s.setRam m).faultAddr = s.faultAddr := rfl
@[simp] theorem setRam_stepOutcome (m : Memory) : (s.setRam m).stepOutcome = s.stepOutcome := rfl
@[simp] theorem setRam_draws (m : Memory) : (s.setRam m).draws = s.draws := rfl
@[simp] theorem setRam_reg (m : Memory) (k : Reg) : (s.setRam m).reg k = s.reg k := rfl

/-! ### nextDraw -/

@[simp] theorem nextDraw_ram : s.nextDraw.ram = s.ram := rfl
@[simp] theorem nextDraw_v : s.nextDraw.v = s.v := rfl
@[simp] theorem nextDraw_i : s.nextDraw.i = s.i := rfl
@[simp] theorem nextDraw_pc : s.nextDraw.pc = s.pc := rfl
@[simp] theorem nextDraw_sp : s.nextDraw.sp = s.sp := rfl
@[simp] theorem nextDraw_stack : s.nextDraw.stack = s.stack := rfl
@[simp] theorem nextDraw_opcode : s.nextDraw.opcode = s.opcode := rfl
@[simp] theorem nextDraw_dt : s.nextDraw.dt = s.dt := rfl
@[simp] theorem nextDraw_st : s.nextDraw.st = s.st := rfl
@[simp] theorem nextDraw_fb : s.nextDraw.fb = s.fb := rfl
@[simp] theorem nextDraw_frameReady : s.nextDraw.frameReady = s.frameReady := rfl
@[simp] theorem nextDraw_keys : s.nextDraw.keys = s.keys := rfl
@[simp] theorem nextDraw_halted : s.nextDraw.halted = s.halted := rfl
@[simp] theorem nextDraw_faultCause : s.nextDraw.faultCause = s.faultCause := rfl
@[simp] theorem nextDraw_faultPc : s.nextDraw.faultPc = s.faultPc := rfl
@[simp] theorem nextDraw_faultWord : s.nextDraw.faultWord = s.faultWord := rfl
@[simp] theorem nextDraw_faultAddr : s.nextDraw.faultAddr = s.faultAddr := rfl
@[simp] theorem nextDraw_stepOutcome : s.nextDraw.stepOutcome = s.stepOutcome := rfl
@[simp] theorem nextDraw_draws : s.nextDraw.draws = s.draws + 1 := rfl
@[simp] theorem nextDraw_reg (k : Reg) : s.nextDraw.reg k = s.reg k := rfl

/-! ### latch -/

@[simp] theorem latch_ram (w : Word) : (s.latch w).ram = s.ram := rfl
@[simp] theorem latch_v (w : Word) : (s.latch w).v = s.v := rfl
@[simp] theorem latch_i (w : Word) : (s.latch w).i = s.i := rfl
@[simp] theorem latch_pc (w : Word) : (s.latch w).pc = s.pc := rfl
@[simp] theorem latch_sp (w : Word) : (s.latch w).sp = s.sp := rfl
@[simp] theorem latch_stack (w : Word) : (s.latch w).stack = s.stack := rfl
@[simp] theorem latch_opcode (w : Word) : (s.latch w).opcode = w := rfl
@[simp] theorem latch_dt (w : Word) : (s.latch w).dt = s.dt := rfl
@[simp] theorem latch_st (w : Word) : (s.latch w).st = s.st := rfl
@[simp] theorem latch_fb (w : Word) : (s.latch w).fb = s.fb := rfl
@[simp] theorem latch_frameReady (w : Word) : (s.latch w).frameReady = s.frameReady := rfl
@[simp] theorem latch_keys (w : Word) : (s.latch w).keys = s.keys := rfl
@[simp] theorem latch_halted (w : Word) : (s.latch w).halted = s.halted := rfl
@[simp] theorem latch_faultCause (w : Word) : (s.latch w).faultCause = s.faultCause := rfl
@[simp] theorem latch_faultPc (w : Word) : (s.latch w).faultPc = s.faultPc := rfl
@[simp] theorem latch_faultWord (w : Word) : (s.latch w).faultWord = s.faultWord := rfl
@[simp] theorem latch_faultAddr (w : Word) : (s.latch w).faultAddr = s.faultAddr := rfl
@[simp] theorem latch_stepOutcome (w : Word) : (s.latch w).stepOutcome = s.stepOutcome := rfl
@[simp] theorem latch_draws (w : Word) : (s.latch w).draws = s.draws := rfl
@[simp] theorem latch_reg (w : Word) (k : Reg) : (s.latch w).reg k = s.reg k := rfl

/-! ### setDt -/

@[simp] theorem setDt_ram (b : Byte) : (s.setDt b).ram = s.ram := rfl
@[simp] theorem setDt_v (b : Byte) : (s.setDt b).v = s.v := rfl
@[simp] theorem setDt_i (b : Byte) : (s.setDt b).i = s.i := rfl
@[simp] theorem setDt_pc (b : Byte) : (s.setDt b).pc = s.pc := rfl
@[simp] theorem setDt_sp (b : Byte) : (s.setDt b).sp = s.sp := rfl
@[simp] theorem setDt_stack (b : Byte) : (s.setDt b).stack = s.stack := rfl
@[simp] theorem setDt_opcode (b : Byte) : (s.setDt b).opcode = s.opcode := rfl
@[simp] theorem setDt_dt (b : Byte) : (s.setDt b).dt = b := rfl
@[simp] theorem setDt_st (b : Byte) : (s.setDt b).st = s.st := rfl
@[simp] theorem setDt_fb (b : Byte) : (s.setDt b).fb = s.fb := rfl
@[simp] theorem setDt_frameReady (b : Byte) : (s.setDt b).frameReady = s.frameReady := rfl
@[simp] theorem setDt_keys (b : Byte) : (s.setDt b).keys = s.keys := rfl
@[simp] theorem setDt_halted (b : Byte) : (s.setDt b).halted = s.halted := rfl
@[simp] theorem setDt_faultCause (b : Byte) : (s.setDt b).faultCause = s.faultCause := rfl
@[simp] theorem setDt_faultPc (b : Byte) : (s.setDt b).faultPc = s.faultPc := rfl
@[simp] theorem setDt_faultWord (b : Byte) : (s.setDt b).faultWord = s.faultWord := rfl
@[simp] theorem setDt_faultAddr (b : Byte) : (s.setDt b).faultAddr = s.faultAddr := rfl
@[simp] theorem setDt_stepOutcome (b : Byte) : (s.setDt b).stepOutcome = s.stepOutcome := rfl
@[simp] theorem setDt_draws (b : Byte) : (s.setDt b).draws = s.draws := rfl
@[simp] theorem setDt_reg (b : Byte) (k : Reg) : (s.setDt b).reg k = s.reg k := rfl

/-! ### setSt -/

@[simp] theorem setSt_ram (b : Byte) : (s.setSt b).ram = s.ram := rfl
@[simp] theorem setSt_v (b : Byte) : (s.setSt b).v = s.v := rfl
@[simp] theorem setSt_i (b : Byte) : (s.setSt b).i = s.i := rfl
@[simp] theorem setSt_pc (b : Byte) : (s.setSt b).pc = s.pc := rfl
@[simp] theorem setSt_sp (b : Byte) : (s.setSt b).sp = s.sp := rfl
@[simp] theorem setSt_stack (b : Byte) : (s.setSt b).stack = s.stack := rfl
@[simp] theorem setSt_opcode (b : Byte) : (s.setSt b).opcode = s.opcode := rfl
@[simp] theorem setSt_dt (b : Byte) : (s.setSt b).dt = s.dt := rfl
@[simp] theorem setSt_st (b : Byte) : (s.setSt b).st = b := rfl
@[simp] theorem setSt_fb (b : Byte) : (s.setSt b).fb = s.fb := rfl
@[simp] theorem setSt_frameReady (b : Byte) : (s.setSt b).frameReady = s.frameReady := rfl
@[simp] theorem setSt_keys (b : Byte) : (s.setSt b).keys = s.keys := rfl
@[simp] theorem setSt_halted (b : Byte) : (s.setSt b).halted = s.halted := rfl
@[simp] theorem setSt_faultCause (b : Byte) : (s.setSt b).faultCause = s.faultCause := rfl
@[simp] theorem setSt_faultPc (b : Byte) : (s.setSt b).faultPc = s.faultPc := rfl
@[simp] theorem setSt_faultWord (b : Byte) : (s.setSt b).faultWord = s.faultWord := rfl
@[simp] theorem setSt_faultAddr (b : Byte) : (s.setSt b).faultAddr = s.faultAddr := rfl
@[simp] theorem setSt_stepOutcome (b : Byte) : (s.setSt b).stepOutcome = s.stepOutcome := rfl
@[simp] theorem setSt_draws (b : Byte) : (s.setSt b).draws = s.draws := rfl
@[simp] theorem setSt_reg (b : Byte) (k : Reg) : (s.setSt b).reg k = s.reg k := rfl

/-! ### tick -/

@[simp] theorem tick_ram : s.tick.ram = s.ram := rfl
@[simp] theorem tick_v : s.tick.v = s.v := rfl
@[simp] theorem tick_i : s.tick.i = s.i := rfl
@[simp] theorem tick_pc : s.tick.pc = s.pc := rfl
@[simp] theorem tick_sp : s.tick.sp = s.sp := rfl
@[simp] theorem tick_stack : s.tick.stack = s.stack := rfl
@[simp] theorem tick_opcode : s.tick.opcode = s.opcode := rfl
@[simp] theorem tick_dt : s.tick.dt = countDown s.dt := rfl
@[simp] theorem tick_st : s.tick.st = countDown s.st := rfl
@[simp] theorem tick_fb : s.tick.fb = s.fb := rfl
@[simp] theorem tick_frameReady : s.tick.frameReady = s.frameReady := rfl
@[simp] theorem tick_keys : s.tick.keys = s.keys := rfl
@[simp] theorem tick_halted : s.tick.halted = s.halted := rfl
@[simp] theorem tick_faultCause : s.tick.faultCause = s.faultCause := rfl
@[simp] theorem tick_faultPc : s.tick.faultPc = s.faultPc := rfl
@[simp] theorem tick_faultWord : s.tick.faultWord = s.faultWord := rfl
@[simp] theorem tick_faultAddr : s.tick.faultAddr = s.faultAddr := rfl
@[simp] theorem tick_stepOutcome : s.tick.stepOutcome = s.stepOutcome := rfl
@[simp] theorem tick_draws : s.tick.draws = s.draws := rfl
@[simp] theorem tick_reg (k : Reg) : s.tick.reg k = s.reg k := rfl

/-! ### setFb -/

@[simp] theorem setFb_ram (fb : Framebuffer) : (s.setFb fb).ram = s.ram := rfl
@[simp] theorem setFb_v (fb : Framebuffer) : (s.setFb fb).v = s.v := rfl
@[simp] theorem setFb_i (fb : Framebuffer) : (s.setFb fb).i = s.i := rfl
@[simp] theorem setFb_pc (fb : Framebuffer) : (s.setFb fb).pc = s.pc := rfl
@[simp] theorem setFb_sp (fb : Framebuffer) : (s.setFb fb).sp = s.sp := rfl
@[simp] theorem setFb_stack (fb : Framebuffer) : (s.setFb fb).stack = s.stack := rfl
@[simp] theorem setFb_opcode (fb : Framebuffer) : (s.setFb fb).opcode = s.opcode := rfl
@[simp] theorem setFb_dt (fb : Framebuffer) : (s.setFb fb).dt = s.dt := rfl
@[simp] theorem setFb_st (fb : Framebuffer) : (s.setFb fb).st = s.st := rfl
@[simp] theorem setFb_fb (fb : Framebuffer) : (s.setFb fb).fb = fb := rfl
@[simp] theorem setFb_frameReady (fb : Framebuffer) : (s.setFb fb).frameReady = s.frameReady := rfl
@[simp] theorem setFb_keys (fb : Framebuffer) : (s.setFb fb).keys = s.keys := rfl
@[simp] theorem setFb_halted (fb : Framebuffer) : (s.setFb fb).halted = s.halted := rfl
@[simp] theorem setFb_faultCause (fb : Framebuffer) : (s.setFb fb).faultCause = s.faultCause := rfl
@[simp] theorem setFb_faultPc (fb : Framebuffer) : (s.setFb fb).faultPc = s.faultPc := rfl
@[simp] theorem setFb_faultWord (fb : Framebuffer) : (s.setFb fb).faultWord = s.faultWord := rfl
@[simp] theorem setFb_faultAddr (fb : Framebuffer) : (s.setFb fb).faultAddr = s.faultAddr := rfl
@[simp] theorem setFb_stepOutcome (fb : Framebuffer) : (s.setFb fb).stepOutcome = s.stepOutcome := rfl
@[simp] theorem setFb_draws (fb : Framebuffer) : (s.setFb fb).draws = s.draws := rfl
@[simp] theorem setFb_reg (fb : Framebuffer) (k : Reg) : (s.setFb fb).reg k = s.reg k := rfl

/-! ### markFrame -/

@[simp] theorem markFrame_ram : s.markFrame.ram = s.ram := rfl
@[simp] theorem markFrame_v : s.markFrame.v = s.v := rfl
@[simp] theorem markFrame_i : s.markFrame.i = s.i := rfl
@[simp] theorem markFrame_pc : s.markFrame.pc = s.pc := rfl
@[simp] theorem markFrame_sp : s.markFrame.sp = s.sp := rfl
@[simp] theorem markFrame_stack : s.markFrame.stack = s.stack := rfl
@[simp] theorem markFrame_opcode : s.markFrame.opcode = s.opcode := rfl
@[simp] theorem markFrame_dt : s.markFrame.dt = s.dt := rfl
@[simp] theorem markFrame_st : s.markFrame.st = s.st := rfl
@[simp] theorem markFrame_fb : s.markFrame.fb = s.fb := rfl
@[simp] theorem markFrame_frameReady : s.markFrame.frameReady = true := rfl
@[simp] theorem markFrame_keys : s.markFrame.keys = s.keys := rfl
@[simp] theorem markFrame_halted : s.markFrame.halted = s.halted := rfl
@[simp] theorem markFrame_faultCause : s.markFrame.faultCause = s.faultCause := rfl
@[simp] theorem markFrame_faultPc : s.markFrame.faultPc = s.faultPc := rfl
@[simp] theorem markFrame_faultWord : s.markFrame.faultWord = s.faultWord := rfl
@[simp] theorem markFrame_faultAddr : s.markFrame.faultAddr = s.faultAddr := rfl
@[simp] theorem markFrame_stepOutcome : s.markFrame.stepOutcome = s.stepOutcome := rfl
@[simp] theorem markFrame_draws : s.markFrame.draws = s.draws := rfl
@[simp] theorem markFrame_reg (k : Reg) : s.markFrame.reg k = s.reg k := rfl

/-! ### recordFault -/

@[simp] theorem recordFault_ram (c : FaultCause) (p w a : Word) : (s.recordFault c p w a).ram = s.ram := rfl
@[simp] theorem recordFault_v (c : FaultCause) (p w a : Word) : (s.recordFault c p w a).v = s.v := rfl
@[simp] theorem recordFault_i (c : FaultCause) (p w a : Word) : (s.recordFault c p w a).i = s.i := rfl
@[simp] theorem recordFault_pc (c : FaultCause) (p w a : Word) : (s.recordFault c p w a).pc = s.pc := rfl
@[simp] theorem recordFault_sp (c : FaultCause) (p w a : Word) : (s.recordFault c p w a).sp = s.sp := rfl
@[simp] theorem recordFault_stack (c : FaultCause) (p w a : Word) : (s.recordFault c p w a).stack = s.stack := rfl
@[simp] theorem recordFault_opcode (c : FaultCause) (p w a : Word) : (s.recordFault c p w a).opcode = s.opcode := rfl
@[simp] theorem recordFault_dt (c : FaultCause) (p w a : Word) : (s.recordFault c p w a).dt = s.dt := rfl
@[simp] theorem recordFault_st (c : FaultCause) (p w a : Word) : (s.recordFault c p w a).st = s.st := rfl
@[simp] theorem recordFault_fb (c : FaultCause) (p w a : Word) : (s.recordFault c p w a).fb = s.fb := rfl
@[simp] theorem recordFault_frameReady (c : FaultCause) (p w a : Word) : (s.recordFault c p w a).frameReady = s.frameReady := rfl
@[simp] theorem recordFault_keys (c : FaultCause) (p w a : Word) : (s.recordFault c p w a).keys = s.keys := rfl
@[simp] theorem recordFault_halted (c : FaultCause) (p w a : Word) : (s.recordFault c p w a).halted = s.halted := rfl
@[simp] theorem recordFault_faultCause (c : FaultCause) (p w a : Word) : (s.recordFault c p w a).faultCause = c := rfl
@[simp] theorem recordFault_faultPc (c : FaultCause) (p w a : Word) : (s.recordFault c p w a).faultPc = p := rfl
@[simp] theorem recordFault_faultWord (c : FaultCause) (p w a : Word) : (s.recordFault c p w a).faultWord = w := rfl
@[simp] theorem recordFault_faultAddr (c : FaultCause) (p w a : Word) : (s.recordFault c p w a).faultAddr = a := rfl
@[simp] theorem recordFault_stepOutcome (c : FaultCause) (p w a : Word) : (s.recordFault c p w a).stepOutcome = s.stepOutcome := rfl
@[simp] theorem recordFault_draws (c : FaultCause) (p w a : Word) : (s.recordFault c p w a).draws = s.draws := rfl
@[simp] theorem recordFault_reg (c : FaultCause) (p w a : Word) (k : Reg) : (s.recordFault c p w a).reg k = s.reg k := rfl

/-! ### halt -/

@[simp] theorem halt_ram : s.halt.ram = s.ram := rfl
@[simp] theorem halt_v : s.halt.v = s.v := rfl
@[simp] theorem halt_i : s.halt.i = s.i := rfl
@[simp] theorem halt_pc : s.halt.pc = s.pc := rfl
@[simp] theorem halt_sp : s.halt.sp = s.sp := rfl
@[simp] theorem halt_stack : s.halt.stack = s.stack := rfl
@[simp] theorem halt_opcode : s.halt.opcode = s.opcode := rfl
@[simp] theorem halt_dt : s.halt.dt = s.dt := rfl
@[simp] theorem halt_st : s.halt.st = s.st := rfl
@[simp] theorem halt_fb : s.halt.fb = s.fb := rfl
@[simp] theorem halt_frameReady : s.halt.frameReady = s.frameReady := rfl
@[simp] theorem halt_keys : s.halt.keys = s.keys := rfl
@[simp] theorem halt_halted : s.halt.halted = true := rfl
@[simp] theorem halt_faultCause : s.halt.faultCause = s.faultCause := rfl
@[simp] theorem halt_faultPc : s.halt.faultPc = s.faultPc := rfl
@[simp] theorem halt_faultWord : s.halt.faultWord = s.faultWord := rfl
@[simp] theorem halt_faultAddr : s.halt.faultAddr = s.faultAddr := rfl
@[simp] theorem halt_stepOutcome : s.halt.stepOutcome = s.stepOutcome := rfl
@[simp] theorem halt_draws : s.halt.draws = s.draws := rfl
@[simp] theorem halt_reg (k : Reg) : s.halt.reg k = s.reg k := rfl

/-! ### fatalFault -/

@[simp] theorem fatalFault_ram (c : FaultCause) (w a : Word) : (s.fatalFault c w a).ram = s.ram := rfl
@[simp] theorem fatalFault_v (c : FaultCause) (w a : Word) : (s.fatalFault c w a).v = s.v := rfl
@[simp] theorem fatalFault_i (c : FaultCause) (w a : Word) : (s.fatalFault c w a).i = s.i := rfl
@[simp] theorem fatalFault_pc (c : FaultCause) (w a : Word) : (s.fatalFault c w a).pc = s.pc := rfl
@[simp] theorem fatalFault_sp (c : FaultCause) (w a : Word) : (s.fatalFault c w a).sp = s.sp := rfl
@[simp] theorem fatalFault_stack (c : FaultCause) (w a : Word) : (s.fatalFault c w a).stack = s.stack := rfl
@[simp] theorem fatalFault_opcode (c : FaultCause) (w a : Word) : (s.fatalFault c w a).opcode = s.opcode := rfl
@[simp] theorem fatalFault_dt (c : FaultCause) (w a : Word) : (s.fatalFault c w a).dt = s.dt := rfl
@[simp] theorem fatalFault_st (c : FaultCause) (w a : Word) : (s.fatalFault c w a).st = s.st := rfl
@[simp] theorem fatalFault_fb (c : FaultCause) (w a : Word) : (s.fatalFault c w a).fb = s.fb := rfl
@[simp] theorem fatalFault_frameReady (c : FaultCause) (w a : Word) : (s.fatalFault c w a).frameReady = s.frameReady := rfl
@[simp] theorem fatalFault_keys (c : FaultCause) (w a : Word) : (s.fatalFault c w a).keys = s.keys := rfl
@[simp] theorem fatalFault_halted (c : FaultCause) (w a : Word) : (s.fatalFault c w a).halted = true := rfl
@[simp] theorem fatalFault_faultCause (c : FaultCause) (w a : Word) : (s.fatalFault c w a).faultCause = c := rfl
@[simp] theorem fatalFault_faultPc (c : FaultCause) (w a : Word) : (s.fatalFault c w a).faultPc = s.pc := rfl
@[simp] theorem fatalFault_faultWord (c : FaultCause) (w a : Word) : (s.fatalFault c w a).faultWord = w := rfl
@[simp] theorem fatalFault_faultAddr (c : FaultCause) (w a : Word) : (s.fatalFault c w a).faultAddr = a := rfl
@[simp] theorem fatalFault_stepOutcome (c : FaultCause) (w a : Word) : (s.fatalFault c w a).stepOutcome = s.stepOutcome := rfl
@[simp] theorem fatalFault_draws (c : FaultCause) (w a : Word) : (s.fatalFault c w a).draws = s.draws := rfl
@[simp] theorem fatalFault_reg (c : FaultCause) (w a : Word) (k : Reg) : (s.fatalFault c w a).reg k = s.reg k := rfl

/-! ### setKeys -/

@[simp] theorem setKeys_ram (d : BitVec 16) : (State.setKeys d s).ram = s.ram := rfl
@[simp] theorem setKeys_v (d : BitVec 16) : (State.setKeys d s).v = s.v := rfl
@[simp] theorem setKeys_i (d : BitVec 16) : (State.setKeys d s).i = s.i := rfl
@[simp] theorem setKeys_pc (d : BitVec 16) : (State.setKeys d s).pc = s.pc := rfl
@[simp] theorem setKeys_sp (d : BitVec 16) : (State.setKeys d s).sp = s.sp := rfl
@[simp] theorem setKeys_stack (d : BitVec 16) : (State.setKeys d s).stack = s.stack := rfl
@[simp] theorem setKeys_opcode (d : BitVec 16) : (State.setKeys d s).opcode = s.opcode := rfl
@[simp] theorem setKeys_dt (d : BitVec 16) : (State.setKeys d s).dt = s.dt := rfl
@[simp] theorem setKeys_st (d : BitVec 16) : (State.setKeys d s).st = s.st := rfl
@[simp] theorem setKeys_fb (d : BitVec 16) : (State.setKeys d s).fb = s.fb := rfl
@[simp] theorem setKeys_frameReady (d : BitVec 16) : (State.setKeys d s).frameReady = s.frameReady := rfl
@[simp] theorem setKeys_keys (d : BitVec 16) : (State.setKeys d s).keys = Vector.ofFn fun k => d.getLsbD k.val := rfl
@[simp] theorem setKeys_halted (d : BitVec 16) : (State.setKeys d s).halted = s.halted := rfl
@[simp] theorem setKeys_faultCause (d : BitVec 16) : (State.setKeys d s).faultCause = s.faultCause := rfl
@[simp] theorem setKeys_faultPc (d : BitVec 16) : (State.setKeys d s).faultPc = s.faultPc := rfl
@[simp] theorem setKeys_faultWord (d : BitVec 16) : (State.setKeys d s).faultWord = s.faultWord := rfl
@[simp] theorem setKeys_faultAddr (d : BitVec 16) : (State.setKeys d s).faultAddr = s.faultAddr := rfl
@[simp] theorem setKeys_stepOutcome (d : BitVec 16) : (State.setKeys d s).stepOutcome = s.stepOutcome := rfl
@[simp] theorem setKeys_draws (d : BitVec 16) : (State.setKeys d s).draws = s.draws := rfl
@[simp] theorem setKeys_reg (d : BitVec 16) (k : Reg) : (State.setKeys d s).reg k = s.reg k := rfl

/-! ### clearFrame -/

@[simp] theorem clearFrame_ram : s.clearFrame.ram = s.ram := rfl
@[simp] theorem clearFrame_v : s.clearFrame.v = s.v := rfl
@[simp] theorem clearFrame_i : s.clearFrame.i = s.i := rfl
@[simp] theorem clearFrame_pc : s.clearFrame.pc = s.pc := rfl
@[simp] theorem clearFrame_sp : s.clearFrame.sp = s.sp := rfl
@[simp] theorem clearFrame_stack : s.clearFrame.stack = s.stack := rfl
@[simp] theorem clearFrame_opcode : s.clearFrame.opcode = s.opcode := rfl
@[simp] theorem clearFrame_dt : s.clearFrame.dt = s.dt := rfl
@[simp] theorem clearFrame_st : s.clearFrame.st = s.st := rfl
@[simp] theorem clearFrame_fb : s.clearFrame.fb = s.fb := rfl
@[simp] theorem clearFrame_frameReady : s.clearFrame.frameReady = false := rfl
@[simp] theorem clearFrame_keys : s.clearFrame.keys = s.keys := rfl
@[simp] theorem clearFrame_halted : s.clearFrame.halted = s.halted := rfl
@[simp] theorem clearFrame_faultCause : s.clearFrame.faultCause = s.faultCause := rfl
@[simp] theorem clearFrame_faultPc : s.clearFrame.faultPc = s.faultPc := rfl
@[simp] theorem clearFrame_faultWord : s.clearFrame.faultWord = s.faultWord := rfl
@[simp] theorem clearFrame_faultAddr : s.clearFrame.faultAddr = s.faultAddr := rfl
@[simp] theorem clearFrame_stepOutcome : s.clearFrame.stepOutcome = s.stepOutcome := rfl
@[simp] theorem clearFrame_draws : s.clearFrame.draws = s.draws := rfl
@[simp] theorem clearFrame_reg (k : Reg) : s.clearFrame.reg k = s.reg k := rfl

/-! ### restart -/

@[simp] theorem restart_ram (start : Word) (font : Vector Byte 80) : (s.restart start font).ram = (State.new start font).ram := rfl
@[simp] theorem restart_v (start : Word) (font : Vector Byte 80) : (s.restart start font).v = (State.new start font).v := rfl
@[simp] theorem restart_i (start : Word) (font : Vector Byte 80) : (s.restart start font).i = (State.new start font).i := rfl
@[simp] theorem restart_pc (start : Word) (font : Vector Byte 80) : (s.restart start font).pc = (State.new start font).pc := rfl
@[simp] theorem restart_sp (start : Word) (font : Vector Byte 80) : (s.restart start font).sp = (State.new start font).sp := rfl
@[simp] theorem restart_stack (start : Word) (font : Vector Byte 80) : (s.restart start font).stack = (State.new start font).stack := rfl
@[simp] theorem restart_opcode (start : Word) (font : Vector Byte 80) : (s.restart start font).opcode = (State.new start font).opcode := rfl
@[simp] theorem restart_dt (start : Word) (font : Vector Byte 80) : (s.restart start font).dt = (State.new start font).dt := rfl
@[simp] theorem restart_st (start : Word) (font : Vector Byte 80) : (s.restart start font).st = (State.new start font).st := rfl
@[simp] theorem restart_fb (start : Word) (font : Vector Byte 80) : (s.restart start font).fb = (State.new start font).fb := rfl
@[simp] theorem restart_frameReady (start : Word) (font : Vector Byte 80) : (s.restart start font).frameReady = (State.new start font).frameReady := rfl
@[simp] theorem restart_keys (start : Word) (font : Vector Byte 80) : (s.restart start font).keys = (State.new start font).keys := rfl
@[simp] theorem restart_halted (start : Word) (font : Vector Byte 80) : (s.restart start font).halted = (State.new start font).halted := rfl
@[simp] theorem restart_faultCause (start : Word) (font : Vector Byte 80) : (s.restart start font).faultCause = (State.new start font).faultCause := rfl
@[simp] theorem restart_faultPc (start : Word) (font : Vector Byte 80) : (s.restart start font).faultPc = (State.new start font).faultPc := rfl
@[simp] theorem restart_faultWord (start : Word) (font : Vector Byte 80) : (s.restart start font).faultWord = (State.new start font).faultWord := rfl
@[simp] theorem restart_faultAddr (start : Word) (font : Vector Byte 80) : (s.restart start font).faultAddr = (State.new start font).faultAddr := rfl
@[simp] theorem restart_stepOutcome (start : Word) (font : Vector Byte 80) : (s.restart start font).stepOutcome = (State.new start font).stepOutcome := rfl
@[simp] theorem restart_draws (start : Word) (font : Vector Byte 80) : (s.restart start font).draws = s.draws := rfl
@[simp] theorem restart_reg (start : Word) (font : Vector Byte 80) (k : Reg) : (s.restart start font).reg k = (State.new start font).reg k := rfl

/-! ### report -/

@[simp] theorem report_ram (o : StepOutcome) : (s.report o).ram = s.ram := rfl
@[simp] theorem report_v (o : StepOutcome) : (s.report o).v = s.v := rfl
@[simp] theorem report_i (o : StepOutcome) : (s.report o).i = s.i := rfl
@[simp] theorem report_pc (o : StepOutcome) : (s.report o).pc = s.pc := rfl
@[simp] theorem report_sp (o : StepOutcome) : (s.report o).sp = s.sp := rfl
@[simp] theorem report_stack (o : StepOutcome) : (s.report o).stack = s.stack := rfl
@[simp] theorem report_opcode (o : StepOutcome) : (s.report o).opcode = s.opcode := rfl
@[simp] theorem report_dt (o : StepOutcome) : (s.report o).dt = s.dt := rfl
@[simp] theorem report_st (o : StepOutcome) : (s.report o).st = s.st := rfl
@[simp] theorem report_fb (o : StepOutcome) : (s.report o).fb = s.fb := rfl
@[simp] theorem report_frameReady (o : StepOutcome) : (s.report o).frameReady = s.frameReady := rfl
@[simp] theorem report_keys (o : StepOutcome) : (s.report o).keys = s.keys := rfl
@[simp] theorem report_halted (o : StepOutcome) : (s.report o).halted = s.halted := rfl
@[simp] theorem report_faultCause (o : StepOutcome) : (s.report o).faultCause = s.faultCause := rfl
@[simp] theorem report_faultPc (o : StepOutcome) : (s.report o).faultPc = s.faultPc := rfl
@[simp] theorem report_faultWord (o : StepOutcome) : (s.report o).faultWord = s.faultWord := rfl
@[simp] theorem report_faultAddr (o : StepOutcome) : (s.report o).faultAddr = s.faultAddr := rfl
@[simp] theorem report_stepOutcome (o : StepOutcome) : (s.report o).stepOutcome = o := rfl
@[simp] theorem report_draws (o : StepOutcome) : (s.report o).draws = s.draws := rfl
@[simp] theorem report_reg (o : StepOutcome) (k : Reg) : (s.report o).reg k = s.reg k := rfl

/-! ### new -/

@[simp] theorem new_ram (start : Word) (font : Vector Byte 80) : (State.new start font).ram = Memory.ofBytes 0x000 font.toList := rfl
@[simp] theorem new_v (start : Word) (font : Vector Byte 80) : (State.new start font).v = Vector.replicate 16 0#8 := rfl
@[simp] theorem new_i (start : Word) (font : Vector Byte 80) : (State.new start font).i = 0#16 := rfl
@[simp] theorem new_pc (start : Word) (font : Vector Byte 80) : (State.new start font).pc = start := rfl
@[simp] theorem new_sp (start : Word) (font : Vector Byte 80) : (State.new start font).sp = 0 := rfl
@[simp] theorem new_stack (start : Word) (font : Vector Byte 80) : (State.new start font).stack = Vector.replicate 16 0#16 := rfl
@[simp] theorem new_opcode (start : Word) (font : Vector Byte 80) : (State.new start font).opcode = 0#16 := rfl
@[simp] theorem new_dt (start : Word) (font : Vector Byte 80) : (State.new start font).dt = 0#8 := rfl
@[simp] theorem new_st (start : Word) (font : Vector Byte 80) : (State.new start font).st = 0#8 := rfl
@[simp] theorem new_fb (start : Word) (font : Vector Byte 80) : (State.new start font).fb = clearScreen := rfl
@[simp] theorem new_frameReady (start : Word) (font : Vector Byte 80) : (State.new start font).frameReady = false := rfl
@[simp] theorem new_keys (start : Word) (font : Vector Byte 80) : (State.new start font).keys = Vector.replicate 16 false := rfl
@[simp] theorem new_halted (start : Word) (font : Vector Byte 80) : (State.new start font).halted = false := rfl
@[simp] theorem new_faultCause (start : Word) (font : Vector Byte 80) : (State.new start font).faultCause = .none := rfl
@[simp] theorem new_faultPc (start : Word) (font : Vector Byte 80) : (State.new start font).faultPc = 0#16 := rfl
@[simp] theorem new_faultWord (start : Word) (font : Vector Byte 80) : (State.new start font).faultWord = 0#16 := rfl
@[simp] theorem new_faultAddr (start : Word) (font : Vector Byte 80) : (State.new start font).faultAddr = 0#16 := rfl
@[simp] theorem new_stepOutcome (start : Word) (font : Vector Byte 80) : (State.new start font).stepOutcome = .ok := rfl
@[simp] theorem new_draws (start : Word) (font : Vector Byte 80) : (State.new start font).draws = 0 := rfl

end Sys2Proof.Machine.State
end

