-- ==== Sys2Proof/Laws/Ops.lean ====
section
/-! SUPPORT. What each shared operation can do, said once: registers, stack, keys, timers, the fetch, faults and
flags. -/

namespace Sys2Proof.Machine

namespace State

variable (s : State)

/-! ### Registers -/

theorem reg_setReg (x k : Reg) (b : Byte) : (s.setReg x b).reg k = if k = x then b else s.reg k := by
  simp only [reg, setReg_v, Fin.getElem_fin, Vector.getElem_set, Fin.val_inj, eq_comm]

@[simp] theorem reg_setReg_same (x : Reg) (b : Byte) : (s.setReg x b).reg x = b := by simp [reg_setReg]

theorem reg_setReg_other {x k : Reg} (b : Byte) (h : k ≠ x) : (s.setReg x b).reg k = s.reg k := by
  simp [reg_setReg, h]

/-- The flag is written last, so VF holds it even when the result went to VF too. -/
theorem reg_setRegFlag (x k : Reg) (r f : Byte) :
    (s.setRegFlag x r f).reg k = if k = vF then f else if k = x then r else s.reg k := by
  simp only [setRegFlag, reg_setReg]

theorem reg_setRegs (v : Vector Byte 16) (k : Reg) : (s.setRegs v).reg k = v[k] := rfl

theorem reg_loadedRegs (x k : Reg) :
    (s.loadedRegs x)[k] = if k ≤ x then s.ram.byte (s.i.toNat + k.val) else s.reg k := by
  simp [loadedRegs, Fin.getElem_fin]

@[simp] theorem length_regsUpTo (x : Reg) : (s.regsUpTo x).length = x.val + 1 := by
  have := x.isLt
  simp [regsUpTo]

theorem getElem_regsUpTo (x : Reg) {k : Nat} (h : k < (s.regsUpTo x).length) (hk : k < 16) :
    (s.regsUpTo x)[k] = s.reg ⟨k, hk⟩ := by
  simp [regsUpTo, reg, Fin.getElem_fin]

/-! ### The stack -/

theorem pushPc_eq_none : s.pushPc = none ↔ s.sp.val = 16 := by
  have := s.sp.isLt
  unfold pushPc
  split
  case isTrue h => simp only [reduceCtorEq, false_iff]; omega
  case isFalse h => simp only [true_iff]; omega

/-- A push fills the next free slot with pc and moves sp; nothing else. -/
theorem pushPc_eq_some {t : State} (ht : s.pushPc = some t) :
    ∃ h : s.sp.val < 16, t = { s with
      stack := s.stack.set s.sp.val s.pc, sp := ⟨s.sp.val + 1, Nat.add_lt_add_right h 1⟩ } := by
  unfold pushPc at ht
  split at ht
  case isTrue h => exact ⟨h, (Option.some.inj ht).symm⟩
  case isFalse h => cases ht

theorem pop_eq_none : s.pop = none ↔ s.sp.val = 0 := by
  unfold pop
  split <;> simp_all

/-- A pop gives the last occupied slot and moves sp; the slot keeps its value. -/
theorem pop_eq_some {a : Word} {t : State} (ht : s.pop = some (a, t)) :
    0 < s.sp.val ∧ a = s.stack[s.sp.val - 1] ∧
      t = { s with sp := ⟨s.sp.val - 1, Nat.lt_of_le_of_lt (Nat.sub_le _ _) s.sp.isLt⟩ } := by
  unfold pop at ht
  split at ht
  case isTrue => cases ht
  case isFalse h =>
    obtain ⟨rfl, rfl⟩ := Prod.mk.inj (Option.some.inj ht)
    exact ⟨Nat.pos_of_ne_zero h, rfl, rfl⟩

/-! ### Keys -/

theorem key?_eq_none {k : Nat} : s.key? k = none ↔ k > 0xF := by
  unfold key?
  split
  case isTrue h => simp only [reduceCtorEq, false_iff]; omega
  case isFalse h => simp only [true_iff]; omega

theorem key?_of_lt {k : Nat} (h : k < 16) : s.key? k = some s.keys[k] := by simp [key?, h]

/-- The search answers the least pressed key of its window, or none when the window holds none. -/
theorem leastKeyFrom_spec (fuel : Nat) : ∀ k,
    (∀ j, s.leastKeyFrom fuel k = some j →
      k ≤ j ∧ j < k + fuel ∧ s.key? j = some true ∧ ∀ j', k ≤ j' → j' < j → s.key? j' ≠ some true) ∧
    (s.leastKeyFrom fuel k = none → ∀ j', k ≤ j' → j' < k + fuel → s.key? j' ≠ some true) := by
  induction fuel with
  | zero => intro k; simp [leastKeyFrom]; intro j h h'; omega
  | succ fuel ih =>
    intro k
    simp only [leastKeyFrom]
    split
    case isTrue h =>
      refine ⟨fun j hj => ?_, fun hn => by cases hn⟩
      obtain rfl := Option.some.inj hj
      exact ⟨Nat.le_refl _, by omega, h, fun j' h1 h2 => by omega⟩
    case isFalse h =>
      obtain ⟨h1, h2⟩ := ih (k + 1)
      refine ⟨fun j hj => ?_, fun hn j' hk hj => ?_⟩
      · obtain ⟨a, b, c, d⟩ := h1 j hj
        refine ⟨by omega, by omega, c, fun j' hk hj' => ?_⟩
        rcases Nat.eq_or_lt_of_le hk with rfl | hlt
        · exact h
        · exact d j' hlt hj'
      · rcases Nat.eq_or_lt_of_le hk with rfl | hlt
        · exact h
        · exact h2 hn j' hlt (by omega)

/-- `leastKey` is the least pressed key (R234). -/
theorem leastKey_eq_some {k : Nat} : s.leastKey = some k ↔
    ∃ h : k < 16, s.keys[k] = true ∧ ∀ j (hj : j < k), s.keys[j] = false := by
  obtain ⟨h1, h2⟩ := s.leastKeyFrom_spec 16 0
  constructor
  · intro hk
    obtain ⟨-, hlt, hd, hmin⟩ := h1 k hk
    have hlt : k < 16 := by omega
    refine ⟨hlt, by simpa [s.key?_of_lt hlt] using hd, fun j hj => ?_⟩
    simpa [s.key?_of_lt (Nat.lt_trans hj hlt)] using hmin j (Nat.zero_le _) hj
  · rintro ⟨hlt, hd, hmin⟩
    cases hl : s.leastKey with
    | none => exact absurd (by simp [s.key?_of_lt hlt, hd]) (h2 hl k (Nat.zero_le _) (by omega))
    | some j =>
      obtain ⟨-, hj, hjd, hjm⟩ := h1 j hl
      rcases Nat.lt_trichotomy j k with h | rfl | h
      · simp [s.key?_of_lt (show j < 16 by omega), hmin j h] at hjd
      · rfl
      · exact absurd (by simp [s.key?_of_lt hlt, hd]) (hjm k (Nat.zero_le _) h)

theorem leastKey_eq_none : s.leastKey = none ↔ ∀ k : Fin 16, s.keys[k] = false := by
  constructor
  · intro hn k
    simpa [s.key?_of_lt k.isLt, Fin.getElem_fin] using
      (s.leastKeyFrom_spec 16 0).2 hn k.val (Nat.zero_le _) (by have := k.isLt; omega)
  · intro h
    cases hl : s.leastKey with
    | none => rfl
    | some k =>
      obtain ⟨hk, hd, -⟩ := s.leastKey_eq_some.1 hl
      simp [show s.keys[k] = false from h ⟨k, hk⟩] at hd

/-! ### The fetch -/

theorem fetch_eq_ok {w : Word} : s.fetch = .ok w ↔
    s.pc.toNat ≤ 0xFFE ∧ w = wordOfBytes (s.ram.byte s.pc.toNat) (s.ram.byte (s.pc.toNat + 1)) := by
  unfold fetch
  split
  case h_1 a h =>
    obtain ⟨⟨-, h⟩, -⟩ := firstBad_eq_some.1 h
    simp only [reduceCtorEq, false_iff]
    omega
  case h_2 h =>
    have : s.pc.toNat ≤ 0xFFE := by rcases firstBad_eq_none.1 h with h | h <;> omega
    simp [this, eq_comm]

theorem fetch_eq_error {a : Nat} : s.fetch = .error a ↔ s.pc.toNat > 0xFFE ∧ a = max s.pc.toNat 0x1000 := by
  unfold fetch
  split
  case h_1 b h =>
    obtain ⟨⟨-, h⟩, rfl⟩ := firstBad_eq_some.1 h
    have : s.pc.toNat > 0xFFE := by omega
    simp [this, eq_comm]
  case h_2 h =>
    have : ¬ s.pc.toNat > 0xFFE := by rcases firstBad_eq_none.1 h with h | h <;> omega
    simp [this]

end State

/-! ### Bytes and words -/

theorem toNat_wordOfBytes (hi lo : Byte) : (wordOfBytes hi lo).toNat = 256 * hi.toNat + lo.toNat := by
  have := lo.isLt
  rw [wordOfBytes, BitVec.toNat_append, ← Nat.shiftLeft_add_eq_or_of_lt lo.isLt, Nat.shiftLeft_eq]
  omega

/-- A word made of two bytes, as a number. -/
theorem wordOfBytes_eq (hi lo : Byte) : wordOfBytes hi lo = BitVec.ofNat 16 (256 * hi.toNat + lo.toNat) := by
  rw [← toNat_wordOfBytes, BitVec.ofNat_toNat, BitVec.setWidth_eq]

theorem wordOfBytes_high_low (w : Word) : wordOfBytes (highByte w) (lowByte w) = w := by
  apply BitVec.eq_of_toNat_eq
  have := w.isLt
  simp only [toNat_wordOfBytes, highByte, lowByte, BitVec.extractLsb'_toNat, Nat.shiftRight_eq_div_pow]
  omega

theorem toNat_addrWord (a : Addr) : (addrWord a).toNat = a.toNat := by
  have := a.isLt
  simp [addrWord, Nat.mod_eq_of_lt (show a.toNat < 65536 by omega)]

theorem toNat_countDown (t : Byte) : (countDown t).toNat = t.toNat - 1 := by
  unfold countDown
  split
  case isTrue h => simp [h]
  case isFalse h =>
    have h : t.toNat ≠ 0 := fun e => h (BitVec.eq_of_toNat_eq (by simpa using e))
    have := t.isLt
    rw [BitVec.toNat_sub_of_le (by simp [BitVec.le_def]; omega)]
    rfl

theorem countDown_eq (t : Byte) : countDown t = BitVec.ofNat 8 (t.toNat - 1) := by
  rw [← toNat_countDown, BitVec.ofNat_toNat, BitVec.setWidth_eq]

/-! ### Flags -/

theorem toNat_flagByte (c : Bool) : (flagByte c).toNat = if c then 1 else 0 := by cases c <;> rfl

theorem flagByte_eq_one (c : Bool) : flagByte c = 1#8 ↔ c = true := by cases c <;> decide

theorem toNat_carryFlag (a b : Byte) : (carryFlag a b).toNat = if a.toNat + b.toNat > 255 then 1 else 0 := by
  have := a.isLt
  rw [carryFlag, toNat_flagByte]
  congr 1
  simp only [decide_eq_true_eq, eq_iff_iff]
  omega

theorem toNat_notBorrowFlag (a b : Byte) : (notBorrowFlag a b).toNat = if b.toNat ≤ a.toNat then 1 else 0 := by
  rw [notBorrowFlag, toNat_flagByte]
  congr 1
  simp

theorem toNat_lsbFlag (a : Byte) : (lsbFlag a).toNat = a.toNat % 2 := by
  simp [lsbFlag, Nat.and_one_is_mod]

theorem toNat_msbFlag (a : Byte) : (msbFlag a).toNat = a.toNat / 128 := by
  simp [msbFlag, Nat.shiftRight_eq_div_pow]

theorem toNat_indexFlag (n : Nat) : (indexFlag n).toNat = if n > 0xFFF then 1 else 0 := by
  rw [indexFlag, toNat_flagByte]
  congr 1
  simp

end Sys2Proof.Machine
end

