-- ==== Sys2Proof/Laws/Draw.lean ====
section
/-! SUPPORT. What drawing a sprite does to each pixel, and when it collides (44_display.md R211-R216): the loops of
`drawRow` and `drawRows` said pixel by pixel. -/

namespace Sys2Proof.Machine

theorem pixel_flipPixel (fb : Framebuffer) (y y' : Fin 32) (x x' : Fin 64) :
    pixel (flipPixel fb y x) y' x' = if y' = y ∧ x' = x then !pixel fb y x else pixel fb y' x' := by
  by_cases hy : y' = y
  · subst hy
    by_cases hx : x' = x
    · subst hx; simp [pixel, flipPixel]
    · have : x.val ≠ x'.val := fun e => hx (Fin.ext e.symm)
      simp [pixel, flipPixel, hx, Vector.getElem_set_ne _ _ this]
  · have : y.val ≠ y'.val := fun e => hy (Fin.ext e.symm)
    simp [pixel, flipPixel, hy, Vector.getElem_set_ne _ _ this]

@[simp] theorem pixel_clearScreen (y : Fin 32) (x : Fin 64) : pixel clearScreen y x = false := by
  simp [pixel, clearScreen]

/-- Two framebuffers with the same pixels are the same. -/
theorem framebuffer_ext {f g : Framebuffer} (h : ∀ y x, pixel f y x = pixel g y x) : f = g := by
  refine Vector.ext fun y hy => Vector.ext fun x hx => ?_
  simpa [pixel, Fin.getElem_fin] using h ⟨y, hy⟩ ⟨x, hx⟩

/-- Columns of one sprite wrap to distinct columns (R216). -/
theorem spriteCol_inj {x0 c c' : Nat} (h : c < 8) (h' : c' < 8) (e : spriteCol x0 c = spriteCol x0 c') : c = c' := by
  have e := congrArg Fin.val e
  simp only [spriteCol, Fin.ofNat_eq_cast, Fin.val_natCast] at e
  omega

/-- Rows of one sprite wrap to distinct rows (R216). -/
theorem spriteRow_inj {y0 r r' : Nat} (h : r < r' + 32) (h' : r' < r + 32) (e : spriteRow y0 r = spriteRow y0 r') :
    r = r' := by
  have e := congrArg Fin.val e
  simp only [spriteRow, Fin.ofNat_eq_cast, Fin.val_natCast] at e
  omega

/-- The first `n` bits of a sprite byte put a 1 on column `px`. -/
def RowHits (x0 : Nat) (b : Byte) (n : Nat) (px : Fin 64) : Prop :=
  ∃ c, c < n ∧ spriteBit b c = true ∧ spriteCol x0 c = px

/-- The first `n` bits of a row, pixel by pixel. -/
theorem drawBits_spec (py : Fin 32) (x0 : Nat) (b : Byte) (cv : Canvas) (n : Nat) (hn : n ≤ 8) :
    let out := (List.range n).foldl (drawBit py x0 b) cv
    (∀ y x, y = py ∧ RowHits x0 b n x → pixel out.1 y x = !pixel cv.1 y x) ∧
    (∀ y x, ¬ (y = py ∧ RowHits x0 b n x) → pixel out.1 y x = pixel cv.1 y x) ∧
    (out.2 = true ↔ cv.2 = true ∨ ∃ x, RowHits x0 b n x ∧ pixel cv.1 py x = true) := by
  induction n with
  | zero =>
    have : ∀ x, ¬ RowHits x0 b 0 x := fun x ⟨c, h, _⟩ => Nat.not_lt_zero c h
    simp [this]
  | succ n ih =>
    obtain ⟨on, off, hit⟩ := ih (by omega)
    have fresh : ¬ RowHits x0 b n (spriteCol x0 n) := fun ⟨c, h, _, e⟩ =>
      absurd (spriteCol_inj (by omega) (by omega) e) (by omega)
    have grow : ∀ x, RowHits x0 b (n + 1) x ↔ RowHits x0 b n x ∨ (spriteBit b n = true ∧ spriteCol x0 n = x) := by
      intro x
      constructor
      · rintro ⟨c, h, hb, e⟩
        rcases Nat.lt_or_eq_of_le (Nat.le_of_lt_succ h) with h | rfl
        · exact .inl ⟨c, h, hb, e⟩
        · exact .inr ⟨hb, e⟩
      · rintro (⟨c, h, hb, e⟩ | ⟨hb, e⟩)
        · exact ⟨c, by omega, hb, e⟩
        · exact ⟨n, by omega, hb, e⟩
    simp only [List.range_succ, List.foldl_append, List.foldl_cons, List.foldl_nil, grow]
    generalize (List.range n).foldl (drawBit py x0 b) cv = mid at on off hit ⊢
    have same : pixel mid.1 py (spriteCol x0 n) = pixel cv.1 py (spriteCol x0 n) :=
      off _ _ fun h => fresh h.2
    unfold drawBit
    split
    case isFalse hb =>
      simp only [hb, Bool.false_eq_true, false_and, or_false]
      exact ⟨on, off, hit⟩
    case isTrue hb =>
      simp only [hb, true_and, pixel_flipPixel]
      refine ⟨?_, ?_, ?_⟩
      · rintro y x ⟨rfl, h | rfl⟩
        · have : ¬ (y = y ∧ x = spriteCol x0 n) := fun e => fresh (e.2 ▸ h)
          rw [if_neg this]
          exact on _ _ ⟨rfl, h⟩
        · rw [if_pos ⟨rfl, rfl⟩, same]
      · intro y x h
        rw [if_neg fun e => h ⟨e.1, .inr e.2.symm⟩]
        exact off _ _ fun e => h ⟨e.1, .inl e.2⟩
      · rw [Bool.or_eq_true, hit, same]
        constructor
        · rintro ((h | ⟨x, h, hp⟩) | h)
          · exact .inl h
          · exact .inr ⟨x, .inl h, hp⟩
          · exact .inr ⟨_, .inr rfl, h⟩
        · rintro (h | ⟨x, h | rfl, hp⟩)
          · exact .inl (.inl h)
          · exact .inl (.inr ⟨x, h, hp⟩)
          · exact .inr hp

/-- Some row of the sprite, the first at offset `r`, puts a 1 on the pixel. -/
def RowsHit (x0 y0 r : Nat) (bs : List Byte) (py : Fin 32) (px : Fin 64) : Prop :=
  ∃ (k : Nat) (h : k < bs.length), spriteRow y0 (r + k) = py ∧ RowHits x0 bs[k] 8 px

/-- A whole sprite of at most 32 rows, pixel by pixel. -/
theorem drawRows_spec (x0 y0 : Nat) (bs : List Byte) : ∀ (r : Nat) (cv : Canvas), bs.length ≤ 32 →
    let out := drawRows x0 y0 r bs cv
    (∀ y x, RowsHit x0 y0 r bs y x → pixel out.1 y x = !pixel cv.1 y x) ∧
    (∀ y x, ¬ RowsHit x0 y0 r bs y x → pixel out.1 y x = pixel cv.1 y x) ∧
    (out.2 = true ↔ cv.2 = true ∨ ∃ y x, RowsHit x0 y0 r bs y x ∧ pixel cv.1 y x = true) := by
  induction bs with
  | nil =>
    intro r cv _
    have : ∀ y x, ¬ RowsHit x0 y0 r [] y x := fun y x ⟨k, h, _⟩ => Nat.not_lt_zero k h
    simp [drawRows, this]
  | cons b bs ih =>
    intro r cv hlen
    simp only [List.length_cons] at hlen
    obtain ⟨on₁, off₁, hit₁⟩ := drawBits_spec (spriteRow y0 r) x0 b cv 8 (Nat.le_refl 8)
    obtain ⟨on₂, off₂, hit₂⟩ := ih (r + 1) (drawRow (spriteRow y0 r) x0 b cv) (by omega)
    have grow : ∀ y x, RowsHit x0 y0 r (b :: bs) y x ↔
        (y = spriteRow y0 r ∧ RowHits x0 b 8 x) ∨ RowsHit x0 y0 (r + 1) bs y x := by
      intro y x
      constructor
      · rintro ⟨k, hk, e, h⟩
        cases k with
        | zero => exact .inl ⟨e.symm, h⟩
        | succ k =>
          exact .inr ⟨k, by simpa using hk, by rwa [Nat.add_right_comm, Nat.add_assoc], by simpa using h⟩
      · rintro (⟨rfl, h⟩ | ⟨k, hk, e, h⟩)
        · exact ⟨0, by simp, rfl, h⟩
        · exact ⟨k + 1, by simpa using hk, by rwa [← Nat.add_assoc, Nat.add_right_comm], by simpa using h⟩
    have apart : ∀ y x, y = spriteRow y0 r → ¬ RowsHit x0 y0 (r + 1) bs y x := by
      rintro y x rfl ⟨k, hk, e, -⟩
      exact absurd (spriteRow_inj (by omega) (by omega) e) (by omega)
    simp only [drawRows, grow]
    refine ⟨?_, ?_, ?_⟩
    · rintro y x (⟨rfl, h⟩ | h)
      · rw [off₂ _ _ (apart _ _ rfl)]; exact on₁ _ _ ⟨rfl, h⟩
      · rw [on₂ _ _ h]
        exact congrArg _ (off₁ _ _ fun e => apart _ _ e.1 h)
    · intro y x h
      rw [off₂ _ _ fun e => h (.inr e)]
      exact off₁ _ _ fun e => h (.inl e)
    · rw [hit₂]
      constructor
      · rintro (h | ⟨y, x, h, hp⟩)
        · rcases hit₁.1 h with h | ⟨x, h, hp⟩
          · exact .inl h
          · exact .inr ⟨_, x, .inl ⟨rfl, h⟩, hp⟩
        · refine .inr ⟨y, x, .inr h, ?_⟩
          rw [← off₁ y x fun e => apart _ _ e.1 h]
          exact hp
      · rintro (h | ⟨y, x, ⟨rfl, h⟩ | h, hp⟩)
        · exact .inl (hit₁.2 (.inl h))
        · exact .inl (hit₁.2 (.inr ⟨x, h, hp⟩))
        · refine .inr ⟨y, x, h, ?_⟩
          rw [← hp]
          exact off₁ y x fun e => apart _ _ e.1 h

end Sys2Proof.Machine
end

