-- ==== Sys2Proof/Laws/PerInstr.lean ====
section
/-! SUPPORT. The per-instruction family EncodingRow: the encoder's word of each instruction lies in the instruction's
own row of the opcode map, and the row's fields give the operands back. -/

namespace Sys2Proof.Laws.EncodingRow

/-- A row of R99 matches the encoded word, and building the instruction from the word's fields gives it back when
it is well-formed. -/
def Statement (i : Instr) : Prop :=
  ∃ r ∈ opcodeMap, encode i &&& r.mask = r.pattern ∧ (i.wf = true → r.build (encode i) = i)

/-- The row at place `k` of the map is the one. -/
theorem of_row {i : Instr} (k : Fin 34) (h : encode i &&& opcodeMap[k].mask = opcodeMap[k].pattern)
    (hb : i.wf = true → opcodeMap[k].build (encode i) = i) : Statement i :=
  ⟨opcodeMap[k], List.getElem_mem _, h, hb⟩

theorem cls : Statement .cls := of_row 0 (by decide) fun _ => rfl

theorem ret : Statement .ret := of_row 1 (by decide) fun _ => rfl

theorem jp (nnn : Addr) : Statement (.jp nnn) :=
  of_row 2 (by simp [encode, opcodeMap]) fun _ => by simp [encode, opcodeMap]

theorem call (nnn : Addr) : Statement (.call nnn) :=
  of_row 3 (by simp [encode, opcodeMap]) fun _ => by simp [encode, opcodeMap]

theorem seByte (x : Reg) (nn : Byte) : Statement (.seByte x nn) :=
  of_row 4 (by simp [encode, opcodeMap]) fun _ => by simp [encode, opcodeMap]

theorem sneByte (x : Reg) (nn : Byte) : Statement (.sneByte x nn) :=
  of_row 5 (by simp [encode, opcodeMap]) fun _ => by simp [encode, opcodeMap]

theorem seReg (x y : Reg) : Statement (.seReg x y) :=
  of_row 6 (by simp [encode, opcodeMap]) fun _ => by simp [encode, opcodeMap]

theorem ldByte (x : Reg) (nn : Byte) : Statement (.ldByte x nn) :=
  of_row 7 (by simp [encode, opcodeMap]) fun _ => by simp [encode, opcodeMap]

theorem addByte (x : Reg) (nn : Byte) : Statement (.addByte x nn) :=
  of_row 8 (by simp [encode, opcodeMap]) fun _ => by simp [encode, opcodeMap]

theorem ldReg (x y : Reg) : Statement (.ldReg x y) :=
  of_row 9 (by simp [encode, opcodeMap]) fun _ => by simp [encode, opcodeMap]

theorem orReg (x y : Reg) : Statement (.orReg x y) :=
  of_row 10 (by simp [encode, opcodeMap]) fun _ => by simp [encode, opcodeMap]

theorem andReg (x y : Reg) : Statement (.andReg x y) :=
  of_row 11 (by simp [encode, opcodeMap]) fun _ => by simp [encode, opcodeMap]

theorem xorReg (x y : Reg) : Statement (.xorReg x y) :=
  of_row 12 (by simp [encode, opcodeMap]) fun _ => by simp [encode, opcodeMap]

theorem addReg (x y : Reg) : Statement (.addReg x y) :=
  of_row 13 (by simp [encode, opcodeMap]) fun _ => by simp [encode, opcodeMap]

theorem subReg (x y : Reg) : Statement (.subReg x y) :=
  of_row 14 (by simp [encode, opcodeMap]) fun _ => by simp [encode, opcodeMap]

theorem shr (x y : Reg) : Statement (.shr x y) :=
  of_row 15 (by simp [encode, opcodeMap]) fun _ => by simp [encode, opcodeMap]

theorem subnReg (x y : Reg) : Statement (.subnReg x y) :=
  of_row 16 (by simp [encode, opcodeMap]) fun _ => by simp [encode, opcodeMap]

theorem shl (x y : Reg) : Statement (.shl x y) :=
  of_row 17 (by simp [encode, opcodeMap]) fun _ => by simp [encode, opcodeMap]

theorem sneReg (x y : Reg) : Statement (.sneReg x y) :=
  of_row 18 (by simp [encode, opcodeMap]) fun _ => by simp [encode, opcodeMap]

theorem ldI (nnn : Addr) : Statement (.ldI nnn) :=
  of_row 19 (by simp [encode, opcodeMap]) fun _ => by simp [encode, opcodeMap]

theorem jpV0 (nnn : Addr) : Statement (.jpV0 nnn) :=
  of_row 20 (by simp [encode, opcodeMap]) fun _ => by simp [encode, opcodeMap]

theorem rnd (x : Reg) (nn : Byte) : Statement (.rnd x nn) :=
  of_row 21 (by simp [encode, opcodeMap]) fun _ => by simp [encode, opcodeMap]

theorem drw (x y : Reg) (n : Nat) : Statement (.drw x y n) :=
  of_row 22 (by simp [encode, opcodeMap]) fun h => by
    have hn : n < 16 := by simpa [Instr.wf] using h
    simp [encode, opcodeMap, Nat.mod_eq_of_lt hn]

theorem skp (x : Reg) : Statement (.skp x) :=
  of_row 23 (by simp [encode, opcodeMap]) fun _ => by simp [encode, opcodeMap]

theorem sknp (x : Reg) : Statement (.sknp x) :=
  of_row 24 (by simp [encode, opcodeMap]) fun _ => by simp [encode, opcodeMap]

theorem ldVxDt (x : Reg) : Statement (.ldVxDt x) :=
  of_row 25 (by simp [encode, opcodeMap]) fun _ => by simp [encode, opcodeMap]

theorem ldVxK (x : Reg) : Statement (.ldVxK x) :=
  of_row 26 (by simp [encode, opcodeMap]) fun _ => by simp [encode, opcodeMap]

theorem ldDtVx (x : Reg) : Statement (.ldDtVx x) :=
  of_row 27 (by simp [encode, opcodeMap]) fun _ => by simp [encode, opcodeMap]

theorem ldStVx (x : Reg) : Statement (.ldStVx x) :=
  of_row 28 (by simp [encode, opcodeMap]) fun _ => by simp [encode, opcodeMap]

theorem addIVx (x : Reg) : Statement (.addIVx x) :=
  of_row 29 (by simp [encode, opcodeMap]) fun _ => by simp [encode, opcodeMap]

theorem ldFVx (x : Reg) : Statement (.ldFVx x) :=
  of_row 30 (by simp [encode, opcodeMap]) fun _ => by simp [encode, opcodeMap]

theorem ldBVx (x : Reg) : Statement (.ldBVx x) :=
  of_row 31 (by simp [encode, opcodeMap]) fun _ => by simp [encode, opcodeMap]

theorem storeRegs (x : Reg) : Statement (.storeRegs x) :=
  of_row 32 (by simp [encode, opcodeMap]) fun _ => by simp [encode, opcodeMap]

theorem loadRegs (x : Reg) : Statement (.loadRegs x) :=
  of_row 33 (by simp [encode, opcodeMap]) fun _ => by simp [encode, opcodeMap]

end Sys2Proof.Laws.EncodingRow
end

