-- ==== Sys2Proof/Laws/Step.lean ====
section
/-! SUPPORT. What an execute phase and a step can do, each said once. -/

namespace Sys2Proof.Machine

theorem State.wordAtPc_eq (s : State) :
    wordOfBytes (s.ram.byte s.pc.toNat) (s.ram.byte (s.pc.toNat + 1)) = s.wordAtPc :=
  wordOfBytes_eq _ _

/-- A fetch of the running machine with pc in range gives the word at pc. -/
theorem State.fetch_of_canFetch {s : State} (h : s.CanFetch) : s.fetch = .ok s.wordAtPc :=
  s.fetch_eq_ok.2 ⟨h.2, s.wordAtPc_eq.symm⟩

/-- What an addressing fault in the execute phase leaves. -/
theorem raise_eq (c : FaultCause) (a : Nat) (s : State) :
    raise c a s = .next (s.fatalFault c s.opcode (BitVec.ofNat 16 a)) := rfl

/-- A completed or faulting execute phase is a next state; the rest is what `finish` adds. -/
theorem finish_next (t : State) :
    finish (.next t) = .next (if t.halted then t.report .fault else t.tick.report .ok) := rfl

/-- An execute phase always answers a next state: it completes, with the latch, the keys, the outcome, `halted` and
the fault record as they were, or it takes the one fault listed for the instruction and does nothing else. -/
theorem exec_cases (i : Instr) (s : State) :
    (∃ t, exec i s = .next t ∧ t.opcode = s.opcode ∧ t.keys = s.keys ∧ t.stepOutcome = s.stepOutcome ∧
      t.halted = s.halted ∧ t.faultCause = s.faultCause ∧ t.faultPc = s.faultPc ∧ t.faultWord = s.faultWord ∧
      t.faultAddr = s.faultAddr) ∨
    ∃ c a, faultTable i = some c ∧ exec i s = .next (s.fatalFault c s.opcode (BitVec.ofNat 16 a)) := by
  cases i with
  | ret =>
    simp only [exec, execRet]
    split
    · exact .inr ⟨_, _, rfl, raise_eq _ _ _⟩
    · rename_i a t h
      obtain ⟨-, -, rfl⟩ := s.pop_eq_some h
      exact .inl ⟨_, rfl, by simp⟩
  | call nnn =>
    simp only [exec, execCall]
    split
    · exact .inr ⟨_, _, rfl, raise_eq _ _ _⟩
    · rename_i t h
      obtain ⟨-, rfl⟩ := s.pushPc_eq_some h
      exact .inl ⟨_, rfl, by simp⟩
  | drw x y n =>
    simp only [exec, execDrw]
    split
    · exact .inr ⟨_, _, rfl, raise_eq _ _ _⟩
    · exact .inl ⟨_, rfl, by simp⟩
  | skp x =>
    simp only [exec, execSkp]
    split
    · exact .inr ⟨_, _, rfl, raise_eq _ _ _⟩
    · exact .inl ⟨_, rfl, by simp⟩
  | sknp x =>
    simp only [exec, execSknp]
    split
    · exact .inr ⟨_, _, rfl, raise_eq _ _ _⟩
    · exact .inl ⟨_, rfl, by simp⟩
  | ldVxK x =>
    simp only [exec, execLdVxK]
    split <;> exact .inl ⟨_, rfl, by simp⟩
  | ldBVx x =>
    simp only [exec, execLdBVx]
    split
    · exact .inr ⟨_, _, rfl, raise_eq _ _ _⟩
    · exact .inl ⟨_, rfl, by simp⟩
  | storeRegs x =>
    simp only [exec, execStoreRegs]
    split
    · exact .inr ⟨_, _, rfl, raise_eq _ _ _⟩
    · exact .inl ⟨_, rfl, by simp⟩
  | loadRegs x =>
    simp only [exec, execLoadRegs]
    split
    · exact .inr ⟨_, _, rfl, raise_eq _ _ _⟩
    · exact .inl ⟨_, rfl, by simp⟩
  | _ => exact .inl ⟨_, rfl, by simp⟩

/-- The five things a step can be: halted, a faulting fetch, a skipped decode fault, a fatal fault of the execute
phase, or an executed instruction. -/
inductive StepCase (s : State) : State → Prop where
  | halted (h : s.halted = true) : StepCase s (s.report .halted)
  | fetchFault (h : s.halted = false) (hp : s.pc.toNat > 0xFFE) :
      StepCase s ((s.fatalFault .fetchRange 0#16 (BitVec.ofNat 16 (max s.pc.toNat 0x1000))).report .fault)
  | decodeFault (h : s.CanFetch) {f : DecodeFault} (hd : decodeWord s.wordAtPc = .error f) :
      StepCase s ((s.latch s.wordAtPc).decodeFault .skip s.wordAtPc)
  | execFault (h : s.CanFetch) {i : Instr} (hd : decodeWord s.wordAtPc = .ok i) {c : FaultCause} {a : Nat}
      (hc : faultTable i = some c)
      (he : exec i (s.latch s.wordAtPc) = .next ((s.latch s.wordAtPc).fatalFault c s.wordAtPc (BitVec.ofNat 16 a))) :
      StepCase s (((s.latch s.wordAtPc).fatalFault c s.wordAtPc (BitVec.ofNat 16 a)).report .fault)
  | executed (h : s.CanFetch) {i : Instr} (hd : decodeWord s.wordAtPc = .ok i) {u : State}
      (he : exec i (s.latch s.wordAtPc) = .next u) (hu : u.halted = false) : StepCase s (u.tick.report .ok)

/-- Every step answers a next state, and it is one of the five. -/
theorem step_cases (s : State) : ∃ t, step s = .next t ∧ StepCase s t := by
  cases hh : s.halted with
  | true => exact ⟨_, by simp [step, stepWith, hh], .halted hh⟩
  | false =>
    cases hf : s.fetch with
    | error a =>
      obtain ⟨hp, rfl⟩ := s.fetch_eq_error.1 hf
      exact ⟨_, by simp [step, stepWith, hh, hf], .fetchFault hh hp⟩
    | ok w =>
      obtain ⟨hp, hw⟩ := s.fetch_eq_ok.1 hf
      have can : s.CanFetch := ⟨hh, hp⟩
      obtain rfl : w = s.wordAtPc := hw.trans s.wordAtPc_eq
      cases hd : decodeWord s.wordAtPc with
      | error f => exact ⟨_, by simp [step, stepWith, runWord, hh, hf, hd], .decodeFault can hd⟩
      | ok i =>
        rcases exec_cases i (s.latch s.wordAtPc) with ⟨t, he, -, -, -, ht, -⟩ | ⟨c, a, hc, he⟩
        · have ht : t.halted = false := ht.trans hh
          exact ⟨_, by simp [step, stepWith, runWord, hh, hf, hd, he, finish, ht], .executed can hd he ht⟩
        · exact ⟨_, by simp [step, stepWith, runWord, hh, hf, hd, he, finish], .execFault can hd hc he⟩

/-- The form later proofs use: from a step's answer, its case. -/
theorem step_inv {s t : State} (h : step s = .next t) : StepCase s t := by
  obtain ⟨u, hu, hc⟩ := step_cases s
  obtain rfl : u = t := by simpa [hu] using h
  exact hc

end Sys2Proof.Machine
end

