-- ==== Sys2Proof/Tests/Slice0.lean ====
section
/-! SUPPORT. The well-formedness smoke, a word written from R92 and R99 for every constructor, one-step tests whose
results are the vectors of 95_test_vectors.md, and the witnesses of the statements that have hypotheses. -/

namespace Sys2Proof.Tests

open Sys2Proof.Machine

/-! ## Well-formedness -/

theorem test_wf_refuses_sprite_of_sixteen_rows : (Instr.drw 0 0 16).wf = false := by decide
theorem test_wf_accepts_sprite_of_fifteen_rows : (Instr.drw 0 0 15).wf = true := by decide

/-! ## Decoding: words bit by bit, family nibble first -/

theorem test_decode_family0 :
    decodeWord 0b0000000011100000#16 = .ok .cls ∧ decodeWord 0b0000000011101110#16 = .ok .ret ∧
    decodeWord 0b0000000111101110#16 = .ok .ret := by decide

theorem test_decode_jumps :
    decodeWord 0b0001001000110100#16 = .ok (.jp 0x234#12) ∧ decodeWord 0b0010001100000000#16 = .ok (.call 0x300#12) ∧
    decodeWord 0b1011111111111111#16 = .ok (.jpV0 0xFFF#12) := by decide

theorem test_decode_skips :
    decodeWord 0b0011101001000010#16 = .ok (.seByte 10 0x42#8) ∧
    decodeWord 0b0100101001000010#16 = .ok (.sneByte 10 0x42#8) ∧
    decodeWord 0b0101000100100000#16 = .ok (.seReg 1 2) ∧ decodeWord 0b1001000100100000#16 = .ok (.sneReg 1 2) ∧
    decodeWord 0b0101000100100111#16 = .ok (.seReg 1 2) := by decide

theorem test_decode_loads :
    decodeWord 0b0110101001011100#16 = .ok (.ldByte 10 0x5C#8) ∧
    decodeWord 0b0111101011111111#16 = .ok (.addByte 10 0xFF#8) ∧
    decodeWord 0b1010000100100011#16 = .ok (.ldI 0x123#12) ∧
    decodeWord 0b1100001100001111#16 = .ok (.rnd 3 0x0F#8) ∧
    decodeWord 0b1101000100100101#16 = .ok (.drw 1 2 5) := by decide

theorem test_decode_family8 :
    decodeWord 0b1000000100100000#16 = .ok (.ldReg 1 2) ∧ decodeWord 0b1000000100100001#16 = .ok (.orReg 1 2) ∧
    decodeWord 0b1000000100100010#16 = .ok (.andReg 1 2) ∧ decodeWord 0b1000000100100011#16 = .ok (.xorReg 1 2) ∧
    decodeWord 0b1000000100100100#16 = .ok (.addReg 1 2) ∧ decodeWord 0b1000000100100101#16 = .ok (.subReg 1 2) ∧
    decodeWord 0b1000000100100110#16 = .ok (.shr 1 2) ∧ decodeWord 0b1000000100100111#16 = .ok (.subnReg 1 2) ∧
    decodeWord 0b1000000100101110#16 = .ok (.shl 1 2) := by decide

theorem test_decode_familyE :
    decodeWord 0b1110010110011110#16 = .ok (.skp 5) ∧ decodeWord 0b1110010110100001#16 = .ok (.sknp 5) := by decide

theorem test_decode_familyF :
    decodeWord 0b1111001100000111#16 = .ok (.ldVxDt 3) ∧ decodeWord 0b1111001100001010#16 = .ok (.ldVxK 3) ∧
    decodeWord 0b1111001100010101#16 = .ok (.ldDtVx 3) ∧ decodeWord 0b1111001100011000#16 = .ok (.ldStVx 3) ∧
    decodeWord 0b1111001100011110#16 = .ok (.addIVx 3) ∧ decodeWord 0b1111001100101001#16 = .ok (.ldFVx 3) ∧
    decodeWord 0b1111001100110011#16 = .ok (.ldBVx 3) ∧ decodeWord 0b1111001101010101#16 = .ok (.storeRegs 3) ∧
    decodeWord 0b1111001101100101#16 = .ok (.loadRegs 3) := by decide

theorem test_decode_holes :
    decodeWord 0x0123#16 = .error (.family0 0x0123#16) ∧ decodeWord 0x812F#16 = .error (.family8 0x812F#16) ∧
    decodeWord 0xE000#16 = .error (.familyE 0xE000#16) ∧ decodeWord 0xF0FF#16 = .error (.familyF 0xF0FF#16) := by
  decide

theorem test_decode_table_word : decodeTableWord 16 0x8F14 = some (.addReg 15 1) := by decide

/-! ## The state a vector starts from -/

/-- The reset state with a word at 0x200. -/
def ready (w : Word) : State := State.reset.placeWord w

/-- The reset state with pc at `a` and a word there. -/
def readyAt (a w : Word) : State := (State.reset.jump a).placeWord w

/-- A stack of `n` calls, each from the same address. -/
def withStack (s : State) (n : Fin 17) (a : Word) : State := { s with sp := n, stack := Vector.replicate 16 a }

/-- One byte of RAM set. -/
def withByte (s : State) (a : Nat) (b : Byte) : State := s.setRam (s.ram.write a b)

/-- One pixel set. -/
def withPixel (s : State) (y : Fin 32) (x : Fin 64) : State := s.setFb (flipPixel s.fb y x)

/-- What a next state shows; nothing for the other outcomes. -/
def probe {α : Type} (o : Host.Outcome State Fault Refusal) (f : State → α) : Option α :=
  match o with
  | .next t => some (f t)
  | .fault _ => none
  | .refused _ => none

/-- The halted bit and the fault record as numbers. -/
def record (s : State) : Bool × Nat × Nat × Nat × Nat :=
  (s.halted, s.faultCause.code.toNat, s.faultPc.toNat, s.faultWord.toNat, s.faultAddr.toNat)

theorem test_placed_word_runs_from_reset :
    probe (step (State.reset.withFetchWord 16 0x6A5C)) (fun t => (t.reg 10, t.pc)) = some (0x5C#8, 0x202#16) := by
  decide

/-! ## Reset (R45, R280) -/

theorem test_reset_copies_the_font :
    State.reset.ram.readBytes 0x04B 6 = [0xF0#8, 0x80#8, 0xF0#8, 0x80#8, 0x80#8, 0x00#8] := by decide

theorem test_second_reset_draws_on :
    probe (State.reset.nextDraw.host (.rst 0x200#16 Config.fontRom)) (·.draws) = some 1 := by decide

/-! ## Control flow (V-CF) -/

theorem test_jp_odd_target : probe (step (ready 0x1201#16)) (·.pc) = some 0x201#16 := by decide

theorem test_call_pushes_own_pc :
    probe (step (readyAt 0x250#16 0x2300#16)) (fun t => (t.pc, t.sp, t.stack[0])) = some (0x300#16, 1, 0x250#16) := by
  decide

theorem test_call_overflow :
    probe (step (withStack (ready 0x2400#16) 16 0x200#16)) (fun t => (record t, t.pc, t.sp)) =
      some ((true, 5, 0x200, 0x2400, 0x0010), 0x200#16, 16) := by decide

theorem test_ret_goes_past_call :
    probe (step (withStack (ready 0x00EE#16) 1 0x250#16)) (fun t => (t.pc, t.sp, t.stack[0])) =
      some (0x252#16, 0, 0x250#16) := by decide

theorem test_ret_underflow :
    probe (step (readyAt 0x300#16 0x00EE#16)) (fun t => (record t, t.pc)) =
      some ((true, 6, 0x300, 0x00EE, 0x0000), 0x300#16) := by decide

theorem test_seByte_taken : probe (step ((ready 0x3A42#16).setReg 10 0x42#8)) (·.pc) = some 0x204#16 := by decide
theorem test_seByte_not_taken : probe (step ((ready 0x3A42#16).setReg 10 0x43#8)) (·.pc) = some 0x202#16 := by decide
theorem test_sneByte_not_taken : probe (step ((ready 0x4A42#16).setReg 10 0x42#8)) (·.pc) = some 0x202#16 := by decide
theorem test_sneByte_taken : probe (step (ready 0x4A42#16)) (·.pc) = some 0x204#16 := by decide

theorem test_seReg_taken :
    probe (step (((ready 0x5120#16).setReg 1 0x07#8).setReg 2 0x07#8)) (·.pc) = some 0x204#16 := by decide
theorem test_seReg_not_taken :
    probe (step (((ready 0x5120#16).setReg 1 0x07#8).setReg 2 0x08#8)) (·.pc) = some 0x202#16 := by decide
theorem test_sneReg_taken :
    probe (step (((ready 0x9120#16).setReg 1 0x07#8).setReg 2 0x08#8)) (·.pc) = some 0x204#16 := by decide
theorem test_sneReg_not_taken :
    probe (step (((ready 0x9120#16).setReg 1 0x07#8).setReg 2 0x07#8)) (·.pc) = some 0x202#16 := by decide

theorem test_jpV0_has_no_mask : probe (step ((ready 0xBFFF#16).setReg 0 0xFF#8)) (·.pc) = some 0x10FE#16 := by decide

/-! ## Registers and ALU (V-ALU) -/

theorem test_addByte_wraps_without_flag :
    probe (step ((ready 0x7AFF#16).setReg 10 0x02#8)) (fun t => (t.reg 10, t.reg 15)) = some (0x01#8, 0x00#8) := by
  decide

theorem test_ldReg : probe (step (((ready 0x8120#16).setReg 1 0x01#8).setReg 2 0x99#8)) (·.reg 1) = some 0x99#8 := by
  decide

theorem test_orReg_keeps_flag :
    probe (step ((((ready 0x8121#16).setReg 1 0xF0#8).setReg 2 0x0F#8).setReg 15 0x55#8))
      (fun t => (t.reg 1, t.reg 15)) = some (0xFF#8, 0x55#8) := by decide

theorem test_andReg : probe (step (((ready 0x8122#16).setReg 1 0xF0#8).setReg 2 0x3C#8)) (·.reg 1) = some 0x30#8 := by
  decide

theorem test_xorReg : probe (step (((ready 0x8123#16).setReg 1 0xFF#8).setReg 2 0x0F#8)) (·.reg 1) = some 0xF0#8 := by
  decide

theorem test_addReg_carry :
    probe (step (((ready 0x8124#16).setReg 1 0x01#8).setReg 2 0xFF#8)) (fun t => (t.reg 1, t.reg 15)) =
      some (0x00#8, 0x01#8) := by decide

theorem test_addReg_flag_over_result :
    probe (step (((ready 0x8F14#16).setReg 15 0xFF#8).setReg 1 0x01#8)) (·.reg 15) = some 0x01#8 := by decide

theorem test_subReg_borrow :
    probe (step (((ready 0x8125#16).setReg 1 0x01#8).setReg 2 0x02#8)) (fun t => (t.reg 1, t.reg 15)) =
      some (0xFF#8, 0x00#8) := by decide

theorem test_subReg_equal_operands :
    probe (step (((ready 0x8125#16).setReg 1 0x05#8).setReg 2 0x05#8)) (fun t => (t.reg 1, t.reg 15)) =
      some (0x00#8, 0x01#8) := by decide

theorem test_shr_ignores_y :
    probe (step (((ready 0x8126#16).setReg 1 0x03#8).setReg 2 0xFF#8)) (fun t => (t.reg 1, t.reg 15, t.reg 2)) =
      some (0x01#8, 0x01#8, 0xFF#8) := by decide

theorem test_shr_flag_over_result : probe (step ((ready 0x8F06#16).setReg 15 0x02#8)) (·.reg 15) = some 0x00#8 := by
  decide

theorem test_subnReg_no_borrow :
    probe (step (((ready 0x8127#16).setReg 1 0x02#8).setReg 2 0x05#8)) (fun t => (t.reg 1, t.reg 15)) =
      some (0x03#8, 0x01#8) := by decide

theorem test_subnReg_borrow :
    probe (step (((ready 0x8127#16).setReg 1 0x05#8).setReg 2 0x02#8)) (fun t => (t.reg 1, t.reg 15)) =
      some (0xFD#8, 0x00#8) := by decide

theorem test_shl_ignores_y :
    probe (step ((ready 0x812E#16).setReg 1 0x81#8)) (fun t => (t.reg 1, t.reg 15)) = some (0x02#8, 0x01#8) := by
  decide

theorem test_shl_flag_over_result : probe (step ((ready 0x8F0E#16).setReg 15 0x81#8)) (·.reg 15) = some 0x01#8 := by
  decide

/-- V-ALU-25 with the draw left free. -/
theorem test_rnd_masks_the_draw :
    probe (step (ready 0xC30F#16)) (fun t => (t.reg 3, t.pc)) = some (Config.rand8 0 &&& 0x0F#8, 0x202#16) := by rfl

/-! ## Index and memory (V-IM) -/

theorem test_ldI : probe (step (ready 0xA123#16)) (·.i) = some 0x0123#16 := by decide

theorem test_addIVx_wraps_with_flag :
    probe (step (((ready 0xF31E#16).setIndex 0xFFFF#16).setReg 3 0x02#8)) (fun t => (t.i, t.reg 15)) =
      some (0x0001#16, 0x01#8) := by decide

theorem test_addIVx_flag_is_the_addend :
    probe (step (((ready 0xFF1E#16).setIndex 0x0FF0#16).setReg 15 0x20#8)) (fun t => (t.i, t.reg 15)) =
      some (0x1010#16, 0x01#8) := by decide

theorem test_ldFVx_has_no_mask : probe (step ((ready 0xF329#16).setReg 3 0x10#8)) (·.i) = some 0x0050#16 := by decide

theorem test_ldBVx_largest_value :
    probe (step (((ready 0xF333#16).setIndex 0x300#16).setReg 3 0xFF#8)) (fun t => (t.ram.readBytes 0x300 3, t.i)) =
      some ([0x02#8, 0x05#8, 0x05#8], 0x300#16) := by decide

theorem test_ldBVx_writes_nothing_out_of_range :
    probe (step (((ready 0xF333#16).setIndex 0x0FFE#16).setReg 3 0x11#8)) (fun t => (record t, t.ram.byte 0xFFE)) =
      some ((true, 4, 0x200, 0xF333, 0x1000), 0x00#8) := by decide

theorem test_storeRegs_stores_up_to_x :
    probe (step (((((ready 0xF155#16).setIndex 0x300#16).setReg 0 0x01#8).setReg 1 0x02#8).setReg 2 0x03#8))
      (fun t => (t.ram.readBytes 0x300 3, t.i)) = some ([0x01#8, 0x02#8, 0x00#8], 0x300#16) := by decide

theorem test_storeRegs_index_out_of_range :
    probe (step ((ready 0xF355#16).setIndex 0x1002#16)) record = some (true, 4, 0x200, 0xF355, 0x1002) := by decide

theorem test_loadRegs_last_byte_of_ram :
    probe (step ((withByte (ready 0xFF65#16) 0xFFF 0xAA#8).setIndex 0x0FF0#16)) (·.reg 15) = some 0xAA#8 := by decide

theorem test_loadRegs_one_byte_past_the_end :
    probe (step ((ready 0xFF65#16).setIndex 0x0FF1#16)) record = some (true, 3, 0x200, 0xFF65, 0x1000) := by decide

/-! ## Display (V-DRW) -/

theorem test_cls_clears :
    probe (step (withPixel (withPixel (ready 0x00E0#16) 10 10) 31 63))
      (fun t => (pixel t.fb 10 10, pixel t.fb 31 63, t.frameReady, t.pc)) = some (false, false, false, 0x202#16) := by
  decide

/-- V-DRW-5: the right edge wraps. -/
theorem test_drw_wraps :
    probe (step ((((withByte (ready 0xD121#16) 0x300 0x81#8).setIndex 0x300#16).setReg 1 60#8).setReg 2 31#8))
      (fun t => (pixel t.fb 31 60, pixel t.fb 31 3, pixel t.fb 31 61, t.reg 15, t.frameReady)) =
      some (true, true, false, 0x00#8, true) := by decide

/-- V-DRW-9: the coordinates are read before VF is written. -/
theorem test_drw_coordinates_in_vf :
    probe (step (withPixel (((withByte (ready 0xDFF1#16) 0x300 0x80#8).setIndex 0x300#16).setReg 15 3#8) 3 3))
      (fun t => (pixel t.fb 3 3, t.reg 15, t.frameReady)) = some (false, 0x01#8, true) := by decide

/-! ## Input and timers (V-KT) -/

theorem test_skp_taken :
    probe (step (((ready 0xE59E#16).setReg 5 0x07#8).setKeys 0x0080#16)) (·.pc) = some 0x204#16 := by decide

theorem test_skp_key_out_of_range :
    probe (step ((ready 0xE59E#16).setReg 5 0x10#8)) record = some (true, 7, 0x200, 0xE59E, 0x0010) := by decide

theorem test_sknp_taken : probe (step ((ready 0xE5A1#16).setReg 5 0x07#8)) (·.pc) = some 0x204#16 := by decide

theorem test_sknp_key_out_of_range :
    probe (step ((ready 0xE1A1#16).setReg 1 0xFF#8)) record = some (true, 7, 0x200, 0xE1A1, 0x00FF) := by decide

theorem test_ldVxDt_before_the_tick :
    probe (step ((ready 0xF307#16).setDt 5#8)) (fun t => (t.reg 3, t.dt)) = some (5#8, 4#8) := by decide

theorem test_ldVxK_waits :
    probe (step (((ready 0xF30A#16).setDt 3#8).setSt 1#8)) (fun t => (t.pc, t.dt, t.st)) =
      some (0x200#16, 2#8, 0#8) := by decide

theorem test_ldVxK_least_key :
    probe (step ((ready 0xF30A#16).setKeys 0x1210#16)) (fun t => (t.reg 3, t.pc)) = some (0x04#8, 0x202#16) := by
  decide

theorem test_ldDtVx_ticks_in_its_step : probe (step ((ready 0xF315#16).setReg 3 5#8)) (·.dt) = some 4#8 := by decide

theorem test_ldStVx_ticks_in_its_step : probe (step ((ready 0xF318#16).setReg 3 1#8)) (·.st) = some 0#8 := by decide

/-! ## Faults and the halted state (V-CF-19, V-CF-20, V-DEC, V-FLT) -/

theorem test_fetch_second_byte_out_of_range :
    probe (step (State.reset.jump 0xFFF#16)) (fun t => (record t, t.opcode)) =
      some ((true, 2, 0xFFF, 0x0000, 0x1000), 0x0000#16) := by decide

theorem test_fetch_pc_out_of_range :
    probe (step (State.reset.jump 0x10FE#16)) record = some (true, 2, 0x10FE, 0x0000, 0x10FE) := by decide

theorem test_decode_fault_skips :
    probe (step ((ready 0x0123#16).setDt 2#8)) (fun t => (record t, t.pc, t.dt, t.stepOutcome)) =
      some ((false, 1, 0x200, 0x0123, 0x0000), 0x202#16, 1#8, .decodeSkipped) := by decide

theorem test_decode_fault_fatal_policy :
    probe (stepWith .fatal ((ready 0xF0FF#16).setDt 2#8)) (fun t => (record t, t.pc, t.dt, t.stepOutcome)) =
      some ((true, 1, 0x200, 0xF0FF, 0x0000), 0x200#16, 2#8, .fault) := by decide

theorem test_halted_step :
    probe (step ((ready 0x6A5C#16).setDt 4#8).halt) (fun t => (t.stepOutcome, t.dt, t.pc, t.reg 10)) =
      some (.halted, 4#8, 0x200#16, 0x00#8) := by decide

/-! ## Witnesses: states and operands that meet the hypotheses of the statements -/

/-- A placed word is fetched; the checks a witness of `Fetches` needs. -/
theorem fetches_of {s : State} {i : Instr} (h : s.halted = false) (hp : s.pc.toNat ≤ 0xFFE)
    (hd : decodeWord s.wordAtPc = .ok i) : s.Fetches i := ⟨⟨h, hp⟩, hd⟩

/-- Every row of the opcode map has a word: its pattern. -/
theorem witness_OpcodeMapIsDecoded :
    (∀ r ∈ opcodeMap, r.pattern &&& r.mask = r.pattern) ∧ ∃ r ∈ opcodeMap, 0x8ABE#16 &&& r.mask = r.pattern := by
  decide

theorem witness_DecodeFaultWords :
    decodeWord 0x00DF#16 = .error (.family0 0x00DF#16) ∧ decodeWord 0x00E1#16 = .error (.family0 0x00E1#16) ∧
    decodeWord 0x8008#16 = .error (.family8 0x8008#16) ∧ decodeWord 0x800D#16 = .error (.family8 0x800D#16) ∧
    decodeWord 0xE0A0#16 = .error (.familyE 0xE0A0#16) ∧ decodeWord 0xF066#16 = .error (.familyF 0xF066#16) := by
  decide

theorem witness_UnreadBitsHaveNoEffect :
    (0x00E0#16 &&& 0xF0FF#16 = 0x0FE0#16 &&& 0xF0FF#16 ∧ (0x00E0#16).toNat / 4096 = 0 ∧
      decodeWord 0x00E0#16 = .ok .cls) ∧
    (0x00EE#16 &&& 0xF0FF#16 = 0x01EE#16 &&& 0xF0FF#16 ∧ (0x00EE#16).toNat / 4096 = 0 ∧
      decodeWord 0x00EE#16 = .ok .ret) ∧
    (0x5120#16 &&& 0xFFF0#16 = 0x512F#16 &&& 0xFFF0#16 ∧ (0x5120#16).toNat / 4096 = 5) ∧
    (0x9120#16 &&& 0xFFF0#16 = 0x912F#16 &&& 0xFFF0#16 ∧ (0x9120#16).toNat / 4096 = 9) := by decide

theorem witness_DecodeOfEncodeIsTheInstruction : (Instr.drw 15 15 15).wf = true ∧ Instr.cls.wf = true := by decide

theorem witness_EncodeOfDecodeIsTheWord :
    decodeWord 0xDFFF#16 = .ok (.drw 15 15 15) ∧ decodeWord 0x512F#16 = .ok (.seReg 1 2) := by decide

theorem witness_MemoryPrimitivesReadAndWriteOneByte :
    (Memory.write? [] 0xFFF (BitVec.ofNat 8 0x1AA) = some [(0xFFF, 0xAA#8)] ∧ Memory.wf []) ∧
    (State.reset.ram.read? 0xFFF = some 0x00#8 ∧ 0xFFE ≠ 0xFFF) := by decide

/-- Both bytes of the last word that a store can reach, its lower byte alone, and a BCD store over it. -/
theorem witness_StoredWordIsFetchedNext :
    (let s := (readyAt 0xFFC#16 0xF155#16).setIndex 0xFFE#16
     s.ram.wf ∧ s.pc.toNat ≤ 0xFFC ∧ s.Fetches (.storeRegs 1) ∧ s.i.toNat + (1 : Reg).val ≤ 0xFFF) ∧
    (let s := (readyAt 0xFFC#16 0xF055#16).setIndex 0xFFF#16
     s.ram.wf ∧ s.pc.toNat ≤ 0xFFC ∧ s.Fetches (.storeRegs 0) ∧ s.i.toNat + (0 : Reg).val ≤ 0xFFF) ∧
    (let s := (readyAt 0xFFC#16 0xF333#16).setIndex 0xFFD#16
     s.ram.wf ∧ s.pc.toNat ≤ 0xFFC ∧ s.Fetches (.ldBVx 3) ∧ s.i.toNat + 2 ≤ 0xFFF) :=
  ⟨⟨by decide, by decide, fetches_of (by decide) (by decide) (by decide), by decide⟩,
   ⟨by decide, by decide, fetches_of (by decide) (by decide) (by decide), by decide⟩,
   ⟨by decide, by decide, fetches_of (by decide) (by decide) (by decide), by decide⟩⟩

/-- A completed and a faulting execute phase. -/
theorem witness_StepRunsTheDecodedInstruction :
    (∃ s t : State, s.Fetches (.jp 0x234#12) ∧ exec (.jp 0x234#12) { s with opcode := s.wordAtPc } = .next t ∧
      t.halted = false) ∧
    ∃ s t : State, s.Fetches .ret ∧ exec .ret { s with opcode := s.wordAtPc } = .next t ∧ t.halted = true :=
  ⟨⟨ready 0x1234#16, _, fetches_of (by decide) (by decide) (by decide), rfl, by decide⟩,
   ⟨ready 0x00EE#16, _, fetches_of (by decide) (by decide) (by decide), rfl, by decide⟩⟩

theorem witness_HaltedStepChangesNothing : (ready 0x6A5C#16).halt.halted = true := by decide

/-- pc at the last RAM byte, and above RAM. -/
theorem witness_FetchOutsideRamIsFatal :
    ((State.reset.jump 0xFFF#16).halted = false ∧ (State.reset.jump 0xFFF#16).pc.toNat > 0xFFE) ∧
    (State.reset.jump 0x1000#16).halted = false ∧ (State.reset.jump 0x1000#16).pc.toNat > 0xFFE := by decide

theorem witness_FetchLatchesTheWord :
    (State.reset.jump 0xFFE#16).CanFetch ∧ ¬ (State.reset.jump 0xFFF#16).CanFetch :=
  ⟨⟨by decide, by decide⟩, fun h => absurd h.2 (by decide)⟩

/-- A step of each outcome. -/
theorem witness_TimersTickOncePerStep :
    (∃ t, step ((ready 0xF315#16).setReg 3 5#8) = .next t ∧ t.stepOutcome = .ok ∧
      decodeWord t.opcode = .ok (.ldDtVx 3)) ∧
    (∃ t, step (ready 0x0123#16) = .next t ∧ t.stepOutcome = .decodeSkipped) ∧
    (∃ t, step (ready 0x00EE#16) = .next t ∧ t.stepOutcome = .fault) ∧
    ∃ t, step (ready 0x00EE#16).halt = .next t ∧ t.stepOutcome = .halted :=
  ⟨⟨_, rfl, by decide, by decide⟩, ⟨_, rfl, by decide⟩, ⟨_, rfl, by decide⟩, ⟨_, rfl, by decide⟩⟩

theorem witness_TimersTickOncePerStep_reads_and_waits :
    (ready 0xF307#16).Fetches (.ldVxDt 3) ∧
    (ready 0xF30A#16).Fetches (.ldVxK 3) ∧ ∀ k : Fin 16, (ready 0xF30A#16).keys[k] = false :=
  ⟨fetches_of (by decide) (by decide) (by decide), fetches_of (by decide) (by decide) (by decide), by decide⟩

theorem witness_PcFollowsTheTable :
    ∃ t, State.reset.halted = false ∧ exec (.ldByte 10 0x5C#8) State.reset = .next t ∧ t.halted = false :=
  ⟨_, by decide, rfl, by decide⟩

theorem witness_InstructionsWriteOnlyTheirElements :
    ∃ t, State.reset.halted = false ∧ exec (.drw 1 2 5) State.reset = .next t ∧ t.halted = false :=
  ⟨_, by decide, rfl, by decide⟩

theorem witness_InstructionsWriteOnlyTheirRegisters : ∃ t, exec (.loadRegs 15) State.reset = .next t := ⟨_, rfl⟩

theorem witness_KeyboardIsReadByThreeInstructions :
    (∃ t, exec (.skp 5) State.reset = .next t) ∧ (∃ t, step (ready 0xE59E#16) = .next t) ∧
    ((State.reset.setReg 5 0x0F#8).reg 5).toNat < 16 ∧
    ((∀ x, Instr.ldVxDt 3 ≠ .skp x ∧ Instr.ldVxDt 3 ≠ .sknp x ∧ Instr.ldVxDt 3 ≠ .ldVxK x) ∧
      ∃ t, exec (.ldVxDt 3) State.reset = .next t) :=
  ⟨⟨_, rfl⟩, ⟨_, rfl⟩, by decide, by decide, _, rfl⟩

theorem witness_HiddenStateIsNeverRead :
    ∃ t, State.reset.halted = false ∧ exec (.ldVxK 3) State.reset = .next t ∧ t.halted = false :=
  ⟨_, by decide, rfl, by decide⟩

theorem witness_DecodeFaultFollowsThePolicy :
    (ready 0x8128#16).CanFetch ∧ decodeWord (ready 0x8128#16).wordAtPc = .error (.family8 0x8128#16) :=
  ⟨⟨by decide, by decide⟩, by decide⟩

theorem witness_FatalFaultsArePrecise : ∃ t, step (ready 0x00EE#16) = .next t ∧ t.stepOutcome = .fault :=
  ⟨_, rfl, by decide⟩

theorem witness_InstructionsRaiseOnlyTheirFault :
    State.reset.halted = false ∧ probe (exec .ret State.reset) (·.halted) = some true := by decide

/-- A running state with a word of its own in RAM. -/
theorem ready_inv : (ready 0x2300#16).Inv :=
  ⟨by decide, by decide, by decide, ⟨by decide, by decide, by decide, by decide⟩⟩

theorem witness_StepKeepsTheInvariant : ∃ t, (ready 0x2300#16).Inv ∧ step (ready 0x2300#16) = .next t :=
  ⟨_, ready_inv, rfl⟩

/-- The highest start address, and a byte on the load port. -/
theorem witness_HostKeepsTheInvariant :
    (∃ t, (ready 0x2300#16).Inv ∧ (∀ start font, HostAction.rst 0x10FE#16 Config.fontRom = .rst start font → start.toNat ≤ 0x10FE) ∧
      (ready 0x2300#16).host (.rst 0x10FE#16 Config.fontRom) = .next t) ∧
    ∃ t, (ready 0x2300#16).Inv ∧ (∀ start font, HostAction.loadByte 0xDFF#12 0xAA#8 = .rst start font → start.toNat ≤ 0x10FE) ∧
      (ready 0x2300#16).host (.loadByte 0xDFF#12 0xAA#8) = .next t :=
  ⟨⟨_, ready_inv, fun _ _ h => by injection h with h; subst h; decide, rfl⟩,
   ⟨_, ready_inv, fun _ _ h => (by cases h), rfl⟩⟩

theorem witness_ReturnGoesPastTheCall :
    0 < (withStack State.reset 1 0x250#16).sp.val ∧ 0 < (withStack State.reset 16 0x250#16).sp.val := by decide

theorem witness_CallPushesItsOwnAddress :
    State.reset.sp.val < 16 ∧ (withStack State.reset 15 0x250#16).sp.val < 16 := by decide

theorem witness_StackLimitsAreFatal :
    State.reset.sp.val = 0 ∧ (withStack State.reset 16 0x250#16).sp.val = 16 := by decide

/-- A call at 0x200 to a return at 0x204, and nothing between. -/
def callAndReturn : State := (((ready 0x2204#16).jump 0x204#16).placeWord 0x00EE#16).jump 0x200#16

theorem callAndReturn_executes : ∃ t, Executes [.call 0x204#12, .ret] callAndReturn t :=
  ⟨_, .step rfl (by decide) (by decide) (.step rfl (by decide) (by decide) (.done _))⟩

theorem witness_BalancedCallsReturn :
    (∃ t, Balanced [.call 0x204#12, .ret] ∧ Executes [.call 0x204#12, .ret] callAndReturn t) ∧
    ∃ t, Balanced [] ∧ Executes (.call 0x204#12 :: ([] ++ [.ret])) callAndReturn t := by
  obtain ⟨t, h⟩ := callAndReturn_executes
  exact ⟨⟨t, .pair 0x204#12 .empty .empty, h⟩, ⟨t, .empty, h⟩⟩

theorem witness_CopyAndLogicWriteOneRegister (x y : Reg) :
    (Instr.ldReg x y = .ldReg x y ∧ (fun _ b : Bool => b) = fun _ b => b) ∧
    (Instr.orReg x y = .orReg x y ∧ or = or) ∧ (Instr.andReg x y = .andReg x y ∧ and = and) ∧
    (Instr.xorReg x y = .xorReg x y ∧ xor = xor) := ⟨⟨rfl, rfl⟩, ⟨rfl, rfl⟩, ⟨rfl, rfl⟩, rfl, rfl⟩

theorem witness_ResultsOutsideVF : (14 : Reg) ≠ 15 ∧ 14 ∉ ([0, 15] : List Reg) := by decide

/-- The last three bytes of RAM. -/
theorem witness_BcdStoresThreeDigits :
    ((ready 0xF333#16).setIndex 0xFFD#16).ram.wf ∧ ((ready 0xF333#16).setIndex 0xFFD#16).i.toNat + 2 ≤ 0xFFF := by
  decide

/-- All sixteen registers at the end of RAM. -/
theorem witness_RegisterTransfers :
    ((ready 0xFF55#16).setIndex 0xFF0#16).ram.wf ∧
      ((ready 0xFF55#16).setIndex 0xFF0#16).i.toNat + (15 : Reg).val ≤ 0xFFF := by decide

/-- The lowest index at which each transfer faults, and an index outside RAM. -/
theorem witness_TransfersOutsideRam :
    (State.reset.setIndex 0xFFE#16).i.toNat + 2 > 0xFFF ∧
    (State.reset.setIndex 0xFF1#16).i.toNat + (15 : Reg).val > 0xFFF ∧
    (State.reset.setIndex 0x1000#16).i.toNat + (0 : Reg).val > 0xFFF ∧
    (2 < 16 ∧ 0 < 2 ∧ (State.reset.setIndex 0xFFF#16).i.toNat + 2 - 1 > 0xFFF) := by decide

/-- The registers are overwritten between the store and the load; RAM and I are not. -/
theorem witness_StoreThenLoadRestoresRegisters :
    ∃ t, exec (.storeRegs 3) (State.reset.setIndex 0x300#16) = .next t ∧
      let u := t.setReg 0 0x77#8
      u.i = (State.reset.setIndex 0x300#16).i ∧ ∀ k, k ≤ (3 : Reg).val → u.ram.byte (0x300 + k) = t.ram.byte (0x300 + k) :=
  ⟨_, rfl, rfl, fun _ _ => rfl⟩

/-- One sprite row 0x80 at (0, 0), on a clear screen and on a set pixel. -/
def oneDot : State := (withByte State.reset 0x300 0x80#8).setIndex 0x300#16

theorem oneDot_touches : oneDot.touched 1 2 1 0 0 :=
  ⟨0, 0, by decide, by decide, by unfold State.spriteOn; decide, by unfold State.spriteAt; decide⟩

theorem oneDot_touches_one : ¬ oneDot.touched 1 2 1 0 1 := by
  rintro ⟨r, c, hr, hc, hon, hx, -⟩
  have : ∀ c < 8, ((oneDot.reg 1).toNat + c) % 64 = (1 : Fin 64).val → c = 1 := by decide
  obtain rfl := this c hc hx
  obtain rfl : r = 0 := by omega
  exact absurd hon (by unfold State.spriteOn; decide)

/-- No row and no memory, and fifteen rows at the end of RAM; a touched pixel, a clear one and a set one; an
untouched one. -/
theorem witness_DrawXorsTheSprite :
    (0 < 16 ∧ (0 = 0 ∨ (State.reset.setIndex 0xFFFF#16).i.toNat + 0 - 1 ≤ 0xFFF)) ∧
    (15 < 16 ∧ (15 = 0 ∨ (State.reset.setIndex 0xFF1#16).i.toNat + 15 - 1 ≤ 0xFFF)) ∧
    (oneDot.touched 1 2 1 0 0 ∧ pixel oneDot.fb 0 0 = false ∧ ¬ oneDot.touched 1 2 1 0 1) ∧
    ((withPixel oneDot 0 0).touched 1 2 1 0 0 ∧ pixel (withPixel oneDot 0 0).fb 0 0 = true) :=
  ⟨by decide, by decide, ⟨oneDot_touches, by decide, oneDot_touches_one⟩, oneDot_touches, by decide⟩

/-- The far corner of the widest sprite, wrapped at both edges. -/
theorem witness_SpritePixelsAreDistinct :
    14 < 15 ∧ 7 < 8 ∧ spriteRow 255 14 = spriteRow 255 14 ∧ spriteCol 255 7 = spriteCol 255 7 := by decide

/-- Two rows visited backwards, and no row. -/
theorem witness_PixelOrderDoesNotMatter :
    (2 < 16 ∧ ((List.range 2).flatMap fun r => (List.range 8).map fun c => (r, c)).reverse.Perm
      ((List.range 2).flatMap fun r => (List.range 8).map fun c => (r, c))) ∧
    (0 < 16 ∧ ([] : List (Nat × Nat)).Perm ((List.range 0).flatMap fun r => (List.range 8).map fun c => (r, c))) :=
  ⟨⟨by decide, List.reverse_perm _⟩, by decide, List.Perm.refl _⟩

theorem witness_DoubleDrawRestoresTheScreen :
    1 < 16 ∧ (1 : Reg) ≠ 15 ∧ (2 : Reg) ≠ 15 ∧ (1 = 0 ∨ oneDot.i.toNat + 1 - 1 ≤ 0xFFF) := by decide

theorem witness_KeySkipsTestTheLatch :
    ((State.reset.setReg 5 0x0F#8).reg 5).toNat < 16 ∧
    ((State.reset.setReg 5 0x0F#8).setKeys 0x8000#16).keys[15] = true := by decide

theorem witness_KeyIndexAbove15IsFatal : ((State.reset.setReg 5 0x10#8).reg 5).toNat > 0xF := by decide

theorem witness_KeyWaitTakesTheLeastPressedKey :
    ((State.reset.setKeys 0x1210#16).keys[(4 : Fin 16)] = true ∧
      ∀ j : Fin 16, j < 4 → (State.reset.setKeys 0x1210#16).keys[j] = false) ∧
    ((State.reset.setKeys 0x8000#16).keys[(15 : Fin 16)] = true ∧
      ∀ j : Fin 16, j < 15 → (State.reset.setKeys 0x8000#16).keys[j] = false) ∧
    ∀ k : Fin 16, State.reset.keys[k] = false := by decide

theorem witness_TimerTransfersCopyTheByte :
    (ready 0xF307#16).Fetches (.ldVxDt 3) ∧ (ready 0xF315#16).Fetches (.ldDtVx 3) ∧
    (ready 0xF318#16).Fetches (.ldStVx 3) :=
  ⟨fetches_of (by decide) (by decide) (by decide), fetches_of (by decide) (by decide) (by decide),
   fetches_of (by decide) (by decide) (by decide)⟩

/-- The longest image that is taken and the shortest that is refused. -/
theorem witness_LoadCopiesTheImage :
    ((List.replicate 3584 0xAA#8).length ≤ 3584 ∧ State.reset.ram.wf) ∧ (List.replicate 3585 0xAA#8).length > 3584 := by
  simp only [List.length_replicate]
  decide

end Sys2Proof.Tests
end

section
/-! Proofs about the state (10_state.md): the execute phase as a guard and an effect, the frames of the updates,
and the statements O14, O18, O19, O20, O21, O25 and O30. -/

namespace Sys2Proof.Machine

/-! ## An execute phase as a guard and an effect -/

/-- The stack with pc in the next free slot: what `pushPc` gives when there is one. -/
def State.pushed (s : State) : State :=
  { s with stack := s.stack.setIfInBounds s.sp.val s.pc, sp := Fin.ofNat 17 (s.sp.val + 1) }

/-- The stack with its last occupied slot freed: what `pop` leaves when there is one. -/
def State.popped (s : State) : State :=
  { s with sp := ⟨s.sp.val - 1, Nat.lt_of_le_of_lt (Nat.sub_le _ _) s.sp.isLt⟩ }

theorem State.pushPc_of_lt {s : State} (h : s.sp.val < 16) : s.pushPc = some s.pushed := by
  have hsp : (⟨s.sp.val + 1, Nat.add_lt_add_right h 1⟩ : Fin 17) = Fin.ofNat 17 (s.sp.val + 1) :=
    Fin.ext (Nat.mod_eq_of_lt (by omega)).symm
  have hstack : s.stack.set s.sp.val s.pc = s.stack.setIfInBounds s.sp.val s.pc :=
    Vector.ext fun j hj => by rw [Vector.getElem_set, Vector.getElem_setIfInBounds]
  simp only [State.pushPc, State.pushed, dif_pos h, hsp, hstack]

theorem State.pop_of_ne {s : State} (h : s.sp.val ≠ 0) : s.pop = some (s.stack[s.sp.val - 1], s.popped) := by
  simp [State.pop, State.popped, h]

/-- The fault an instruction takes in a state, with its address (R254). -/
def execFault (i : Instr) (s : State) : Option (FaultCause × Nat) :=
  match i with
  | .ret => if s.sp.val = 0 then some (.stackUnderflow, 0) else none
  | .call _ => if s.sp.val = 16 then some (.stackOverflow, 16) else none
  | .drw _ _ n => (s.transferBad n).map (.readRange, ·)
  | .loadRegs x => (s.transferBad (x.val + 1)).map (.readRange, ·)
  | .ldBVx _ => (s.transferBad 3).map (.writeRange, ·)
  | .storeRegs x => (s.transferBad (x.val + 1)).map (.writeRange, ·)
  | .skp x | .sknp x => if (s.reg x).toNat > 0xF then some (.keyRange, (s.reg x).toNat) else none
  | _ => none

/-- The state after an instruction that takes no fault. -/
def execEffect (i : Instr) (s : State) : State :=
  match i with
  | .cls => (s.setFb clearScreen).advance
  | .ret => s.popped.jump (s.stack[s.sp.val - 1] + 2#16)
  | .jp nnn => s.jump (addrWord nnn)
  | .call nnn => s.pushed.jump (addrWord nnn)
  | .jpV0 nnn => s.jump (s.indexedTarget nnn)
  | .seByte x nn => s.skipIf (s.reg x == nn)
  | .sneByte x nn => s.skipIf (s.reg x != nn)
  | .seReg x y => s.skipIf (s.reg x == s.reg y)
  | .sneReg x y => s.skipIf (s.reg x != s.reg y)
  | .skp x => s.skipIf (s.key? (s.reg x).toNat == some true)
  | .sknp x => s.skipIf (s.key? (s.reg x).toNat == some false)
  | .ldByte x nn => (s.setReg x nn).advance
  | .addByte x nn => (s.setReg x (s.reg x + nn)).advance
  | .ldReg x y => (s.setReg x (s.reg y)).advance
  | .orReg x y => (s.setReg x (s.reg x ||| s.reg y)).advance
  | .andReg x y => (s.setReg x (s.reg x &&& s.reg y)).advance
  | .xorReg x y => (s.setReg x (s.reg x ^^^ s.reg y)).advance
  | .addReg x y => (s.setRegFlag x (s.reg x + s.reg y) (carryFlag (s.reg x) (s.reg y))).advance
  | .subReg x y => (s.setRegFlag x (s.reg x - s.reg y) (notBorrowFlag (s.reg x) (s.reg y))).advance
  | .shr x _ => (s.setRegFlag x (s.reg x >>> 1) (lsbFlag (s.reg x))).advance
  | .subnReg x y => (s.setRegFlag x (s.reg y - s.reg x) (notBorrowFlag (s.reg y) (s.reg x))).advance
  | .shl x _ => (s.setRegFlag x (s.reg x <<< 1) (msbFlag (s.reg x))).advance
  | .rnd x nn => (s.setReg x (s.randomByte &&& nn)).nextDraw.advance
  | .ldVxDt x => (s.setReg x s.dt).advance
  | .ldVxK x => s.leastKey.elim s fun k => (s.setReg x (BitVec.ofNat 8 k)).advance
  | .loadRegs x => (s.setRegs (s.loadedRegs x)).advance
  | .ldI nnn => (s.setIndex (addrWord nnn)).advance
  | .ldFVx x => (s.setIndex (s.glyphAddr x)).advance
  | .addIVx x => ((s.setIndex (BitVec.ofNat 16 (s.indexSum x))).setReg vF (indexFlag (s.indexSum x))).advance
  | .drw x y n =>
    (((s.setFb (s.drawSprite x y n).1).setReg vF (collisionFlag (s.drawSprite x y n).2)).markFrame).advance
  | .ldDtVx x => (s.setDt (s.reg x)).advance
  | .ldStVx x => (s.setSt (s.reg x)).advance
  | .ldBVx x => (s.setRam (s.ram.writeBytes s.i.toNat (bcdDigits (s.reg x)))).advance
  | .storeRegs x => (s.setRam (s.ram.writeBytes s.i.toNat (s.regsUpTo x))).advance

/-- The faults of the execute phase, each with the condition that raises it (R254). -/
inductive ExecFaultCase (s : State) : Instr → FaultCause → Nat → Prop where
  | ret (h : s.sp.val = 0) : ExecFaultCase s .ret .stackUnderflow 0
  | call (nnn : Addr) (h : s.sp.val = 16) : ExecFaultCase s (.call nnn) .stackOverflow 16
  | drw (x y : Reg) {n a : Nat} (h : s.transferBad n = some a) : ExecFaultCase s (.drw x y n) .readRange a
  | loadRegs {x : Reg} {a : Nat} (h : s.transferBad (x.val + 1) = some a) :
      ExecFaultCase s (.loadRegs x) .readRange a
  | ldBVx (x : Reg) {a : Nat} (h : s.transferBad 3 = some a) : ExecFaultCase s (.ldBVx x) .writeRange a
  | storeRegs {x : Reg} {a : Nat} (h : s.transferBad (x.val + 1) = some a) :
      ExecFaultCase s (.storeRegs x) .writeRange a
  | skp {x : Reg} (h : (s.reg x).toNat > 0xF) : ExecFaultCase s (.skp x) .keyRange (s.reg x).toNat
  | sknp {x : Reg} (h : (s.reg x).toNat > 0xF) : ExecFaultCase s (.sknp x) .keyRange (s.reg x).toNat

theorem execFault_inv {i : Instr} {s : State} {c : FaultCause} {a : Nat} (h : execFault i s = some (c, a)) :
    ExecFaultCase s i c a := by
  cases i with
  | ret =>
    obtain ⟨hg, ⟨⟩⟩ := Option.ite_none_right_eq_some.1 h
    exact .ret hg
  | call nnn =>
    obtain ⟨hg, ⟨⟩⟩ := Option.ite_none_right_eq_some.1 h
    exact .call nnn hg
  | drw x y n =>
    obtain ⟨_, hb, ⟨⟩⟩ := Option.map_eq_some_iff.1 h
    exact .drw x y hb
  | loadRegs x =>
    obtain ⟨_, hb, ⟨⟩⟩ := Option.map_eq_some_iff.1 h
    exact .loadRegs hb
  | ldBVx x =>
    obtain ⟨_, hb, ⟨⟩⟩ := Option.map_eq_some_iff.1 h
    exact .ldBVx x hb
  | storeRegs x =>
    obtain ⟨_, hb, ⟨⟩⟩ := Option.map_eq_some_iff.1 h
    exact .storeRegs hb
  | skp x =>
    obtain ⟨hg, ⟨⟩⟩ := Option.ite_none_right_eq_some.1 h
    exact .skp hg
  | sknp x =>
    obtain ⟨hg, ⟨⟩⟩ := Option.ite_none_right_eq_some.1 h
    exact .sknp hg
  | _ => cases h

/-- The execute phase takes the fault its guard names. -/
theorem exec_of_fault {i : Instr} {s : State} {c : FaultCause} {a : Nat} (h : execFault i s = some (c, a)) :
    exec i s = raise c a s := by
  cases execFault_inv h with
  | ret h0 => simp only [exec, execRet, s.pop_eq_none.2 h0, h0]
  | call nnn h16 => simp only [exec, execCall, s.pushPc_eq_none.2 h16, h16]
  | drw x y hb => simp only [exec, execDrw, hb]
  | loadRegs hb => simp only [exec, execLoadRegs, hb]
  | ldBVx x hb => simp only [exec, execLdBVx, hb]
  | storeRegs hb => simp only [exec, execStoreRegs, hb]
  | skp hk => simp only [exec, execSkp, s.key?_eq_none.2 hk]
  | sknp hk => simp only [exec, execSknp, s.key?_eq_none.2 hk]

/-- The execute phase of an instruction whose guard names no fault has the instruction's effect. -/
theorem exec_of_noFault {i : Instr} {s : State} (h : execFault i s = none) : exec i s = .next (execEffect i s) := by
  cases i with
  | ret =>
    have h0 : s.sp.val ≠ 0 := by simpa [execFault] using h
    simp only [exec, execRet, State.pop_of_ne h0, execEffect]
  | call nnn =>
    have h16 : s.sp.val ≠ 16 := by simpa [execFault] using h
    simp only [exec, execCall, State.pushPc_of_lt (s := s) (by omega), execEffect]
  | drw x y n =>
    have hb : s.transferBad n = none := by simpa [execFault] using h
    simp only [exec, execDrw, hb, execEffect]
  | loadRegs x =>
    have hb : s.transferBad (x.val + 1) = none := by simpa [execFault] using h
    simp only [exec, execLoadRegs, hb, execEffect]
  | ldBVx x =>
    have hb : s.transferBad 3 = none := by simpa [execFault] using h
    simp only [exec, execLdBVx, hb, execEffect]
  | storeRegs x =>
    have hb : s.transferBad (x.val + 1) = none := by simpa [execFault] using h
    simp only [exec, execStoreRegs, hb, execEffect]
  | skp x =>
    have hk : (s.reg x).toNat < 16 := Nat.lt_succ_of_le (by simpa [execFault] using h)
    simp [exec, execSkp, execEffect, s.key?_of_lt hk]
  | sknp x =>
    have hk : (s.reg x).toNat < 16 := Nat.lt_succ_of_le (by simpa [execFault] using h)
    simp [exec, execSknp, execEffect, s.key?_of_lt hk]
  | ldVxK x => simp only [exec, execLdVxK, execEffect]; cases s.leastKey <;> rfl
  | _ => rfl

/-- From an execute phase's answer: its fault and nothing else, or its effect. -/
theorem exec_inv {i : Instr} {s t : State} (h : exec i s = .next t) :
    (∃ c a, execFault i s = some (c, a) ∧ t = s.fatalFault c s.opcode (BitVec.ofNat 16 a)) ∨
      (execFault i s = none ∧ t = execEffect i s) := by
  cases hf : execFault i s with
  | none =>
    rw [exec_of_noFault hf] at h
    exact .inr ⟨rfl, by simpa using h.symm⟩
  | some ca =>
    rw [exec_of_fault hf, raise_eq] at h
    exact .inl ⟨_, _, rfl, by simpa using h.symm⟩

/-- An execute phase that leaves the machine running took no fault. -/
theorem exec_completed {i : Instr} {s t : State} (h : exec i s = .next t) (ht : t.halted = false) :
    execFault i s = none ∧ t = execEffect i s := by
  rcases exec_inv h with ⟨c, a, -, rfl⟩ | done
  · simp at ht
  · exact done

/-! ## Frames: one rule per update -/

section Frames

variable {ps : List Part} {s t u : State}

@[simp] theorem keepsAllBut_refl : KeepsAllBut ps s s := fun p _ => by
  cases p with
  | ram | v => exact fun _ => rfl
  | faultRecord => exact ⟨rfl, rfl, rfl, rfl⟩
  | _ => rfl

/-- An update of one part that the frame leaves out does not touch the frame. -/
theorem keepsAllBut_update {q : Part} (hq : q ∈ ps) (h : ∀ p, p ≠ q → (p.same s u ↔ p.same s t)) :
    KeepsAllBut ps s u ↔ KeepsAllBut ps s t :=
  forall₂_congr fun p hp => h p fun e => hp (e ▸ hq)

@[simp] theorem keepsAllBut_jump (h : .pc ∈ ps) (w : Word) : KeepsAllBut ps s (t.jump w) ↔ KeepsAllBut ps s t :=
  keepsAllBut_update h fun p hp => by cases p with | pc => exact absurd rfl hp | _ => exact Iff.rfl

@[simp] theorem keepsAllBut_advance (h : .pc ∈ ps) : KeepsAllBut ps s t.advance ↔ KeepsAllBut ps s t :=
  keepsAllBut_jump h _

@[simp] theorem keepsAllBut_skipIf (h : .pc ∈ ps) (c : Bool) :
    KeepsAllBut ps s (t.skipIf c) ↔ KeepsAllBut ps s t :=
  keepsAllBut_jump h _

@[simp] theorem keepsAllBut_setRegs (h : .v ∈ ps) (v : Vector Byte 16) :
    KeepsAllBut ps s (t.setRegs v) ↔ KeepsAllBut ps s t :=
  keepsAllBut_update h fun p hp => by cases p with | v => exact absurd rfl hp | _ => exact Iff.rfl

@[simp] theorem keepsAllBut_setReg (h : .v ∈ ps) (x : Reg) (b : Byte) :
    KeepsAllBut ps s (t.setReg x b) ↔ KeepsAllBut ps s t :=
  keepsAllBut_setRegs h _

@[simp] theorem keepsAllBut_setRegFlag (h : .v ∈ ps) (x : Reg) (r f : Byte) :
    KeepsAllBut ps s (t.setRegFlag x r f) ↔ KeepsAllBut ps s t :=
  (keepsAllBut_setReg h vF f).trans (keepsAllBut_setReg h x r)

@[simp] theorem keepsAllBut_setIndex (h : .i ∈ ps) (w : Word) :
    KeepsAllBut ps s (t.setIndex w) ↔ KeepsAllBut ps s t :=
  keepsAllBut_update h fun p hp => by cases p with | i => exact absurd rfl hp | _ => exact Iff.rfl

@[simp] theorem keepsAllBut_setRam (h : .ram ∈ ps) (m : Memory) :
    KeepsAllBut ps s (t.setRam m) ↔ KeepsAllBut ps s t :=
  keepsAllBut_update h fun p hp => by cases p with | ram => exact absurd rfl hp | _ => exact Iff.rfl

@[simp] theorem keepsAllBut_nextDraw (h : .draws ∈ ps) : KeepsAllBut ps s t.nextDraw ↔ KeepsAllBut ps s t :=
  keepsAllBut_update h fun p hp => by cases p with | draws => exact absurd rfl hp | _ => exact Iff.rfl

@[simp] theorem keepsAllBut_setDt (h : .dt ∈ ps) (b : Byte) : KeepsAllBut ps s (t.setDt b) ↔ KeepsAllBut ps s t :=
  keepsAllBut_update h fun p hp => by cases p with | dt => exact absurd rfl hp | _ => exact Iff.rfl

@[simp] theorem keepsAllBut_setSt (h : .st ∈ ps) (b : Byte) : KeepsAllBut ps s (t.setSt b) ↔ KeepsAllBut ps s t :=
  keepsAllBut_update h fun p hp => by cases p with | st => exact absurd rfl hp | _ => exact Iff.rfl

@[simp] theorem keepsAllBut_setFb (h : .fb ∈ ps) (fb : Framebuffer) :
    KeepsAllBut ps s (t.setFb fb) ↔ KeepsAllBut ps s t :=
  keepsAllBut_update h fun p hp => by cases p with | fb => exact absurd rfl hp | _ => exact Iff.rfl

@[simp] theorem keepsAllBut_markFrame (h : .frameReady ∈ ps) :
    KeepsAllBut ps s t.markFrame ↔ KeepsAllBut ps s t :=
  keepsAllBut_update h fun p hp => by cases p with | frameReady => exact absurd rfl hp | _ => exact Iff.rfl

@[simp] theorem keepsAllBut_latch (h : .opcode ∈ ps) (w : Word) :
    KeepsAllBut ps s (t.latch w) ↔ KeepsAllBut ps s t :=
  keepsAllBut_update h fun p hp => by cases p with | opcode => exact absurd rfl hp | _ => exact Iff.rfl

@[simp] theorem keepsAllBut_report (h : .stepOutcome ∈ ps) (o : StepOutcome) :
    KeepsAllBut ps s (t.report o) ↔ KeepsAllBut ps s t :=
  keepsAllBut_update h fun p hp => by cases p with | stepOutcome => exact absurd rfl hp | _ => exact Iff.rfl

@[simp] theorem keepsAllBut_recordFault (h : .faultRecord ∈ ps) (c : FaultCause) (pc w a : Word) :
    KeepsAllBut ps s (t.recordFault c pc w a) ↔ KeepsAllBut ps s t :=
  keepsAllBut_update h fun p hp => by cases p with | faultRecord => exact absurd rfl hp | _ => exact Iff.rfl

@[simp] theorem keepsAllBut_halt (h : .halted ∈ ps) : KeepsAllBut ps s t.halt ↔ KeepsAllBut ps s t :=
  keepsAllBut_update h fun p hp => by cases p with | halted => exact absurd rfl hp | _ => exact Iff.rfl

@[simp] theorem keepsAllBut_fatalFault (hh : .halted ∈ ps) (hr : .faultRecord ∈ ps) (c : FaultCause) (w a : Word) :
    KeepsAllBut ps s (t.fatalFault c w a) ↔ KeepsAllBut ps s t :=
  (keepsAllBut_halt hh).trans (keepsAllBut_recordFault hr _ _ _ _)

@[simp] theorem keepsAllBut_popped (h : .sp ∈ ps) : KeepsAllBut ps s t.popped ↔ KeepsAllBut ps s t :=
  keepsAllBut_update h fun p hp => by cases p with | sp => exact absurd rfl hp | _ => exact Iff.rfl

@[simp] theorem keepsAllBut_pushed (hp : .sp ∈ ps) (hk : .stack ∈ ps) :
    KeepsAllBut ps s t.pushed ↔ KeepsAllBut ps s t :=
  forall₂_congr fun p hn => by
    cases p with
    | sp => exact absurd hp hn
    | stack => exact absurd hk hn
    | _ => exact Iff.rfl

end Frames

/-- R20: what an instruction does beside pc lies in its row of the "written by" column. -/
theorem execEffect_keepsAllBut (i : Instr) (s : State) : KeepsAllBut (.pc :: writeTable i) s (execEffect i s) := by
  cases i with
  | ldVxK x => cases h : s.leastKey <;> simp [execEffect, writeTable, h]
  | _ => simp [execEffect, writeTable]

/-- Parts that no row of the "written by" column holds: no completed instruction writes them. -/
theorem execEffect_same (i : Instr) (s : State) :
    ∀ p ∈ [Part.opcode, .keys, .halted, .faultRecord, .stepOutcome], p.same s (execEffect i s) :=
  fun p hp => execEffect_keepsAllBut i s p <| by
    simp only [List.mem_cons, List.not_mem_nil, or_false] at hp
    rcases hp with rfl | rfl | rfl | rfl | rfl <;> cases i <;> simp [writeTable]

/-- R20, R24: what an instruction does to the registers. -/
theorem execEffect_keepsRegsBut (i : Instr) (s : State) : KeepsRegsBut (regTable i) s (execEffect i s) := by
  intro k hk
  cases i with
  | ldVxK x => cases h : s.leastKey <;> simp_all [execEffect, regTable, State.reg_setReg]
  | loadRegs x =>
    have hx : ¬ k ≤ x := by simpa [regTable] using hk
    exact (s.reg_loadedRegs x k).trans (if_neg hx)
  | call | ret => rfl
  | _ => simp_all [execEffect, regTable, State.reg_setReg, State.reg_setRegFlag]

/-- Settles O18: the effect of each instruction keeps every part outside its row. -/
theorem instructionsWriteOnlyTheirElements : Obligations.InstructionsWriteOnlyTheirElements := by
  intro i s t _ he ht
  obtain ⟨-, rfl⟩ := exec_completed he ht
  exact execEffect_keepsAllBut i s

/-- Settles O19: a fault touches no register, and the effect of each instruction only those of its row. -/
theorem instructionsWriteOnlyTheirRegisters : Obligations.InstructionsWriteOnlyTheirRegisters := by
  intro i s t he
  rcases exec_inv he with ⟨c, a, -, rfl⟩ | ⟨-, rfl⟩
  · exact fun k _ => rfl
  · exact execEffect_keepsRegsBut i s

/-- R253: a fault whose address fits a word is raised with its record and nothing else. -/
theorem raisesFault_of_execFault {i : Instr} {s : State} {c : FaultCause} {a : Nat} (ha : a < 0x10000)
    (h : execFault i s = some (c, a)) : RaisesFault i s c a :=
  ⟨_, exec_of_fault h, ⟨by simp, by simp, by simp, by simp, by simpa using ha⟩, by simp⟩

/-- Settles O30: sp at either limit is the guard's condition for the fault. -/
theorem stackLimitsAreFatal : Obligations.StackLimitsAreFatal :=
  ⟨fun s h => raisesFault_of_execFault (by decide) (by simp [execFault, h]),
   fun s nnn h => raisesFault_of_execFault (by decide) (by simp [execFault, h])⟩

/-! ## The keyboard latch and the opcode latch (R32, R36) -/

theorem exec_keys {i : Instr} {s t : State} (h : exec i s = .next t) : t.keys = s.keys := by
  rcases exec_inv h with ⟨c, a, -, rfl⟩ | ⟨-, rfl⟩
  · rfl
  · exact execEffect_same i s .keys (by simp)

theorem exec_opcode {i : Instr} {s t : State} (h : exec i s = .next t) : t.opcode = s.opcode := by
  rcases exec_inv h with ⟨c, a, -, rfl⟩ | ⟨-, rfl⟩
  · rfl
  · exact execEffect_same i s .opcode (by simp)

theorem StepCase.keys {s t : State} (h : StepCase s t) : t.keys = s.keys := by
  cases h with
  | executed _ _ he _ => exact (exec_keys he :)
  | halted | fetchFault | decodeFault | execFault => rfl

theorem StepCase.opcode_of_canFetch {s t : State} (h : StepCase s t) (hf : s.CanFetch) : t.opcode = s.wordAtPc := by
  cases h with
  | halted hh => exact absurd (hf.1.symm.trans hh) (by decide)
  | fetchFault _ hp => exact absurd hf.2 (by omega)
  | executed _ _ he _ => exact exec_opcode he
  | decodeFault | execFault => rfl

theorem StepCase.opcode_of_not_canFetch {s t : State} (h : StepCase s t) (hf : ¬ s.CanFetch) :
    t.opcode = s.opcode := by
  cases h with
  | halted | fetchFault => rfl
  | decodeFault h | execFault h | executed h => exact absurd h hf

theorem State.toNat_wordAtPc (s : State) :
    s.wordAtPc.toNat = 256 * (s.ram.byte s.pc.toNat).toNat + (s.ram.byte (s.pc.toNat + 1)).toNat := by
  rw [← s.wordAtPc_eq, toNat_wordOfBytes]

/-- Settles O14, by the five cases of a step. -/
theorem fetchLatchesTheWord : Obligations.FetchLatchesTheWord := by
  intro s
  obtain ⟨t, ht, hc⟩ := step_cases s
  exact ⟨fun hf => ⟨t, ht, (congrArg _ (hc.opcode_of_canFetch hf)).trans s.toNat_wordAtPc⟩,
    fun hf => ⟨t, ht, hc.opcode_of_not_canFetch hf⟩⟩

/-! ## State that an execute phase does not read (R36, R40) -/

/-- The keyboard latch replaced. -/
def State.withKeys (s : State) (keys : Vector Bool 16) : State := { s with keys := keys }

/-- Outside the three key instructions the latch is not read. -/
theorem exec_withKeys {i : Instr} {s t : State} (keys : Vector Bool 16)
    (hi : ∀ x, i ≠ .skp x ∧ i ≠ .sknp x ∧ i ≠ .ldVxK x) (h : exec i s = .next t) :
    exec i (s.withKeys keys) = .next (t.withKeys keys) := by
  have guard : execFault i (s.withKeys keys) = execFault i s := by cases i <;> rfl
  have effect : execEffect i (s.withKeys keys) = (execEffect i s).withKeys keys := by
    cases i with
    | skp x => exact absurd rfl (hi x).1
    | sknp x => exact absurd rfl (hi x).2.1
    | ldVxK x => exact absurd rfl (hi x).2.2
    | _ => rfl
  rcases exec_inv h with ⟨c, a, hf, rfl⟩ | ⟨hf, rfl⟩
  · rw [exec_of_fault (guard.trans hf)]
    rfl
  · rw [exec_of_noFault (guard.trans hf), effect]

theorem nextPc_skp {s : State} {x : Reg} (h : (s.reg x).toNat < 16) :
    nextPc (exec (.skp x) s) = some (if s.keys[(s.reg x).toNat] then s.pc + 4#16 else s.pc + 2#16) := by
  simp only [exec, execSkp, s.key?_of_lt h]
  rfl

theorem nextPc_sknp {s : State} {x : Reg} (h : (s.reg x).toNat < 16) :
    nextPc (exec (.sknp x) s) = some (if !s.keys[(s.reg x).toNat] then s.pc + 4#16 else s.pc + 2#16) := by
  simp only [exec, execSknp, s.key?_of_lt h]
  rfl

theorem nextPc_ldVxK (s : State) (x : Reg) :
    nextPc (exec (.ldVxK x) s) = some (if s.leastKey.isSome then s.pc + 2#16 else s.pc) := by
  simp only [exec, execLdVxK]
  cases s.leastKey <;> rfl

/-- R36: the three key instructions tell a full latch from an empty one. -/
theorem keyInstructions_read_keys (s : State) (x : Reg) :
    let down := s.withKeys (Vector.replicate 16 true)
    let up := s.withKeys (Vector.replicate 16 false)
    ((s.reg x).toNat < 16 → nextPc (exec (.skp x) down) ≠ nextPc (exec (.skp x) up) ∧
      nextPc (exec (.sknp x) down) ≠ nextPc (exec (.sknp x) up)) ∧
    nextPc (exec (.ldVxK x) down) ≠ nextPc (exec (.ldVxK x) up) := by
  intro down up
  refine ⟨fun h => ?_, ?_⟩
  · have hd : (down.reg x).toNat < 16 := h
    have hu : (up.reg x).toNat < 16 := h
    rw [nextPc_skp hd, nextPc_skp hu, nextPc_sknp hd, nextPc_sknp hu]
    simp [down, up, State.withKeys]
  · have hd : down.leastKey = some 0 := down.leastKey_eq_some.2 (by simp [down, State.withKeys])
    have hu : up.leastKey = none := up.leastKey_eq_none.2 (by simp [up, State.withKeys])
    rw [nextPc_ldVxK, nextPc_ldVxK, hd, hu]
    simp [down, up, State.withKeys]

/-- Settles O20: nothing writes the latch, the three key instructions read it, and exec commutes with replacing it
for every other. -/
theorem keyboardIsReadByThreeInstructions : Obligations.KeyboardIsReadByThreeInstructions :=
  ⟨fun _ _ _ => exec_keys, fun _ _ h => (step_inv h).keys, keyInstructions_read_keys,
    fun _ _ _ keys hi h => exec_withKeys keys hi h⟩

/-- ST, the frame-ready flag and the opcode latch replaced: what R40 says no program sees. -/
def State.withHidden (s : State) (st : Byte) (ready : Bool) (word : Word) : State :=
  { s with st := st, frameReady := ready, opcode := word }

theorem execFault_withHidden (i : Instr) (s : State) (st : Byte) (ready : Bool) (word : Word) :
    execFault i (s.withHidden st ready word) = execFault i s := by
  cases i <;> rfl

theorem State.leastKey_congr {s u : State} (h : u.keys = s.keys) : u.leastKey = s.leastKey :=
  Option.ext fun k => by simp only [leastKey_eq_some, h]

theorem execEffect_withHidden (i : Instr) (s : State) (st : Byte) (ready : Bool) (word : Word) :
    ∃ st' ready', execEffect i (s.withHidden st ready word) = (execEffect i s).withHidden st' ready' word := by
  cases i with
  | ldStVx x => exact ⟨s.reg x, ready, rfl⟩
  | drw x y n => exact ⟨st, true, rfl⟩
  | ldVxK x =>
    refine ⟨st, ready, ?_⟩
    simp only [execEffect, State.leastKey_congr (show (s.withHidden st ready word).keys = s.keys from rfl)]
    cases s.leastKey <;> rfl
  | _ => exact ⟨st, ready, rfl⟩

theorem keepsAllBut_withHidden (s : State) (st : Byte) (ready : Bool) (word : Word) :
    KeepsAllBut [.st, .frameReady, .opcode] s (s.withHidden st ready word) := by
  intro p hp
  cases p with
  | st | frameReady | opcode => simp at hp
  | ram | v => exact fun _ => rfl
  | faultRecord => exact ⟨rfl, rfl, rfl, rfl⟩
  | _ => rfl

/-- Settles O21: the guard does not see the hidden parts, and the effect commutes with replacing them. -/
theorem hiddenStateIsNeverRead : Obligations.HiddenStateIsNeverRead := by
  intro i s t st ready word _ he ht
  obtain ⟨hf, rfl⟩ := exec_completed he ht
  obtain ⟨st', ready', hu⟩ := execEffect_withHidden i s st ready word
  have done := exec_of_noFault ((execFault_withHidden i s st ready word).trans hf)
  exact ⟨_, done.trans (congrArg _ hu), keepsAllBut_withHidden _ st' ready' word, rfl⟩

/-! ## The invariant (R29, R140, R142, R251, R254) -/

/-- A running machine's record is the initial one or a decode fault's, wherever pc, the latch and the registers
have moved to. -/
theorem State.FaultLegal.of_running {s t : State} (h : s.FaultLegal) (hs : s.halted = false)
    (ht : t.halted = false) (hr : Part.faultRecord.same s t) : t.FaultLegal := by
  obtain ⟨hc, hp, hw, ha⟩ := hr
  simp only [State.FaultLegal, hc, hp, hw, ha] at h ⊢
  cases hcs : s.faultCause with
  | none | decode => simpa [hcs, hs, ht] using h
  | _ => simp [hcs, hs] at h

theorem toNat_add_le_of_le {a b : Word} {n m : Nat} (ha : a.toNat ≤ n) (hb : n + b.toNat ≤ m) :
    (a + b).toNat ≤ m := by
  rw [BitVec.toNat_add]
  exact (Nat.mod_le _ _).trans ((Nat.add_le_add_right ha _).trans hb)

/-- R147: a computed jump goes at most 0xFF past the last 12-bit address. -/
theorem toNat_indexedTarget_le (s : State) (nnn : Addr) : (s.indexedTarget nnn).toNat ≤ 0x10FE := by
  have base : (addrWord nnn).toNat ≤ 0xFFF := (toNat_addrWord nnn).trans_le (Nat.le_of_lt_succ nnn.isLt)
  have offset : ((s.reg 0).zeroExtend 16).toNat ≤ 0xFF := by simp; omega
  exact toNat_add_le_of_le base (by omega)

/-- R29: from a pc that was fetched and slots that were pushed there, pc stays in the bound. -/
theorem execEffect_pcBound {s : State} (hpc : s.pc.toNat ≤ 0xFFE) (hst : ∀ j : Fin 16, s.stack[j].toNat ≤ 0xFFE)
    (i : Instr) : (execEffect i s).pc.toNat ≤ 0x10FE := by
  have next : (s.pc + 2#16).toNat ≤ 0x10FE := toNat_add_le_of_le hpc (by decide)
  have skip : ∀ c : Bool, (s.skipIf c).pc.toNat ≤ 0x10FE
    | true => toNat_add_le_of_le hpc (by decide)
    | false => next
  cases i with
  | ret =>
    have := s.sp.isLt
    have slot : s.stack[s.sp.val - 1].toNat ≤ 0xFFE := hst ⟨s.sp.val - 1, by omega⟩
    exact toNat_add_le_of_le slot (by decide)
  | jp nnn | call nnn =>
    have := nnn.isLt
    exact (toNat_addrWord nnn).trans_le (by omega)
  | jpV0 nnn => exact toNat_indexedTarget_le s nnn
  | seByte | sneByte | seReg | sneReg | skp | sknp => exact skip _
  | ldVxK x =>
    simp only [execEffect]
    cases s.leastKey
    · exact hpc.trans (by decide)
    · exact next
  | _ => simpa [execEffect] using next

/-- R140, R142: only a call writes a slot, and it writes its own pc. -/
theorem execEffect_stackBound {s : State} (hpc : s.pc.toNat ≤ 0xFFE)
    (hst : ∀ j : Fin 16, s.stack[j].toNat ≤ 0xFFE) (i : Instr) (j : Fin 16) :
    (execEffect i s).stack[j].toNat ≤ 0xFFE := by
  by_cases hi : .stack ∈ writeTable i
  · cases i with
    | call nnn =>
      simp only [execEffect, State.jump_stack, State.pushed, Fin.getElem_fin, Vector.getElem_setIfInBounds]
      split
      · exact hpc
      · exact hst j
    | _ => simp [writeTable] at hi
  · rw [execEffect_keepsAllBut i s .stack (by simpa using hi)]
    exact hst j

/-- R62: a transfer that passed its range check stores inside RAM. -/
theorem writeBytes_wf_of_transferBad {s : State} (hs : s.ram.wf) {bs : List Byte} (hbs : bs ≠ [])
    (h : s.transferBad bs.length = none) : (s.ram.writeBytes s.i.toNat bs).wf := by
  refine Memory.writeBytes_wf bs _ _ hs ?_
  rcases firstBad_eq_none.1 h with h0 | hle
  · exact absurd (List.length_eq_zero_iff.1 h0) hbs
  · exact hle

theorem execEffect_ram {i : Instr} (hi : .ram ∉ writeTable i) (s : State) : (execEffect i s).ram = s.ram := by
  cases i with
  | ldBVx | storeRegs => simp [writeTable] at hi
  | ldVxK x => cases h : s.leastKey <;> simp [execEffect, h]
  | ret | call => rfl
  | _ => simp [execEffect]

theorem execEffect_ramWf {i : Instr} {s : State} (hs : s.ram.wf) (hf : execFault i s = none) :
    (execEffect i s).ram.wf := by
  by_cases hi : .ram ∈ writeTable i
  · cases i with
    | ldBVx x =>
      exact writeBytes_wf_of_transferBad hs (List.cons_ne_nil _ _) (by simpa [execFault, bcdDigits] using hf)
    | storeRegs x =>
      have hlen := s.length_regsUpTo x
      exact writeBytes_wf_of_transferBad hs (List.ne_nil_of_length_pos (by omega))
        (by simpa [execFault, hlen] using hf)
    | _ => simp [writeTable] at hi
  · rwa [execEffect_ram hi]

/-- R251: the record of an addressing fault of the execute phase is the one its cause asks for. -/
theorem faultLegal_of_execFault {i : Instr} {s : State} {c : FaultCause} {a : Nat}
    (hd : decodeWord s.opcode = .ok i) (h : execFault i s = some (c, a)) :
    (s.fatalFault c s.opcode (BitVec.ofNat 16 a)).FaultLegal := by
  have transfer : ∀ {n}, s.transferBad n = some a → (BitVec.ofNat 16 a).toNat = max s.i.toNat 0x1000 := by
    intro n hb
    obtain ⟨-, rfl⟩ := firstBad_eq_some.1 hb
    have := s.i.isLt
    exact Nat.mod_eq_of_lt (by omega)
  have key : ∀ x, (BitVec.ofNat 16 (s.reg x).toNat).toNat = (s.reg x).toNat := fun x => by
    have := (s.reg x).isLt
    exact Nat.mod_eq_of_lt (by omega)
  cases execFault_inv h with
  | ret h0 => exact ⟨rfl, rfl, rfl, rfl, Fin.ext h0, hd⟩
  | call nnn h16 => exact ⟨rfl, rfl, rfl, rfl, Fin.ext h16, nnn, hd⟩
  | drw x y hb => exact ⟨rfl, rfl, rfl, transfer hb, .inl ⟨x, y, _, hd⟩⟩
  | loadRegs hb => exact ⟨rfl, rfl, rfl, transfer hb, .inr ⟨_, hd⟩⟩
  | ldBVx x hb => exact ⟨rfl, rfl, rfl, transfer hb, x, .inl hd⟩
  | storeRegs hb => exact ⟨rfl, rfl, rfl, transfer hb, _, .inr hd⟩
  | skp hk => exact ⟨rfl, rfl, rfl, (key _).symm ▸ hk, _, key _, .inl hd⟩
  | sknp hk => exact ⟨rfl, rfl, rfl, (key _).symm ▸ hk, _, key _, .inr hd⟩

/-- The outcome port is no part of the invariant. -/
theorem State.Inv.report {s : State} (h : s.Inv) (o : StepOutcome) : (s.report o).Inv :=
  ⟨h.ramWf, h.stackBound, h.pcBound, h.faultLegal⟩

/-- The timers are no part of the invariant. -/
theorem State.Inv.tick {s : State} (h : s.Inv) : s.tick.Inv :=
  ⟨h.ramWf, h.stackBound, h.pcBound, h.faultLegal⟩

/-- A running machine's record does not speak of the latch. -/
theorem State.Inv.latch {s : State} (h : s.Inv) (hs : s.halted = false) (w : Word) : (s.latch w).Inv :=
  ⟨h.ramWf, h.stackBound, h.pcBound, h.faultLegal.of_running hs hs ⟨rfl, rfl, rfl, rfl⟩⟩

theorem State.Inv.fatalFault {s : State} (h : s.Inv) {c : FaultCause} {w a : Word}
    (hl : (s.fatalFault c w a).FaultLegal) : (s.fatalFault c w a).Inv :=
  ⟨h.ramWf, h.stackBound, h.pcBound, hl⟩

theorem State.Inv.fetchFault {s : State} (h : s.Inv) (hp : s.pc.toNat > 0xFFE) :
    (s.fatalFault .fetchRange 0#16 (BitVec.ofNat 16 (max s.pc.toNat 0x1000))).Inv := by
  have := s.pc.isLt
  exact h.fatalFault ⟨rfl, rfl, rfl, hp, Nat.mod_eq_of_lt (by omega)⟩

theorem State.Inv.decodeFault {s : State} (h : s.Inv) (hs : s.CanFetch) {w : Word} {f : DecodeFault}
    (hd : decodeWord w = .error f) : (s.decodeFault .skip w).Inv where
  ramWf := h.ramWf
  stackBound := h.stackBound
  pcBound := toNat_add_le_of_le hs.2 (by decide)
  faultLegal := ⟨hs.1, rfl, f, hd⟩

theorem State.Inv.effect {s : State} (h : s.Inv) (hs : s.CanFetch) {i : Instr} (hf : execFault i s = none) :
    (execEffect i s).Inv where
  ramWf := execEffect_ramWf h.ramWf hf
  stackBound := execEffect_stackBound hs.2 h.stackBound i
  pcBound := execEffect_pcBound hs.2 h.stackBound i
  faultLegal := by
    have hh : (execEffect i s).halted = s.halted := execEffect_same i s .halted (by simp)
    exact h.faultLegal.of_running hs.1 (hh.trans hs.1) (execEffect_same i s .faultRecord (by simp))

/-- An execute phase, faulting or not, keeps the invariant. -/
theorem State.Inv.execute {s t : State} (h : s.Inv) (hs : s.CanFetch) {i : Instr} (hd : decodeWord s.opcode = .ok i)
    (he : exec i s = .next t) : t.Inv := by
  rcases exec_inv he with ⟨c, a, hf, rfl⟩ | ⟨hf, rfl⟩
  · exact h.fatalFault (faultLegal_of_execFault hd hf)
  · exact h.effect hs hf

/-- Settles O25, by the five cases of a step; each is an operation that keeps the invariant. -/
theorem stepKeepsTheInvariant : Obligations.StepKeepsTheInvariant := by
  intro s t h ht
  cases step_inv ht with
  | halted hh => exact h.report _
  | fetchFault hh hp => exact (h.fetchFault hp).report _
  | decodeFault hs hd => exact (h.latch hs.1 s.wordAtPc).decodeFault hs hd
  | execFault hs hd hc he => exact ((h.latch hs.1 s.wordAtPc).execute hs hd he).report _
  | executed hs hd he hu => exact ((h.latch hs.1 s.wordAtPc).execute hs hd he).tick.report _

end Sys2Proof.Machine
end

section
/-! Proofs about memory (20_memory.md): the checked primitives, the bytes of RAM after a store, a step without a fault,
and the statements O9 and O10. -/

namespace Sys2Proof.Machine

namespace Memory

/-! ## The checked primitives (R62, R63) -/

theorem read?_eq_none {m : Memory} {a : Nat} : m.read? a = none ↔ a > 0xFFF := by simp [read?]

theorem read?_eq_some {m : Memory} {a : Nat} {c : Byte} : m.read? a = some c ↔ ¬ a > 0xFFF ∧ m.byte a = c :=
  Option.ite_none_left_eq_some.trans (and_congr_right fun _ => Option.some_inj)

theorem write?_eq_none {m : Memory} {a : Nat} {b : Byte} : m.write? a b = none ↔ a > 0xFFF := by simp [write?]

theorem write?_eq_some {m m' : Memory} {a : Nat} {b : Byte} :
    m.write? a b = some m' ↔ ¬ a > 0xFFF ∧ m.write a b = m' :=
  Option.ite_none_left_eq_some.trans (and_congr_right fun _ => Option.some_inj)

/-- R65: a byte of RAM after a run of stores is the stored one inside the run and the old one outside. -/
theorem byte_writeBytes {m : Memory} (hm : m.wf) {a : Nat} {bs : List Byte} (h : a + bs.length ≤ Config.memSize)
    (c : Nat) : (m.writeBytes a bs).byte c =
      if hc : a ≤ c ∧ c - a < bs.length then bs[c - a]'hc.2 else m.byte c := by
  split
  case isTrue hc =>
    have inside := byte_writeBytes_inside bs m a hm h (c - a) hc.2
    rwa [Nat.add_sub_of_le hc.1] at inside
  case isFalse hc => exact byte_writeBytes_outside bs m a c (by omega)

end Memory

/-- Settles O9, by the checked primitives and the laws of `Memory.write`. -/
theorem memoryPrimitivesReadAndWriteOneByte : Obligations.MemoryPrimitivesReadAndWriteOneByte := by
  intro m a v
  refine ⟨Memory.read?_eq_none, Memory.write?_eq_none, fun c hc => (Memory.read?_eq_some.1 hc).2.symm, ?_⟩
  intro m' hw
  obtain ⟨ha, rfl⟩ := Memory.write?_eq_some.1 hw
  have inRam : a < Config.memSize := Nat.lt_succ_of_le (Nat.le_of_not_lt ha)
  refine ⟨fun hm => ⟨?_, Memory.write_wf hm _ inRam⟩, fun a' h => Memory.byte_write_other m _ h⟩
  rw [Memory.byte_write_same hm, BitVec.toNat_ofNat]

/-! ## RAM after the two storing instructions (R194, R195) -/

/-- R191: a transfer whose last byte is in RAM passes the range check. -/
theorem State.transferBad_of_le {s : State} {n : Nat} (h : s.i.toNat + n ≤ 0xFFF) : s.transferBad (n + 1) = none :=
  firstBad_eq_none.2 (.inr (by omega))

theorem byte_after_storeRegs {s : State} {x : Reg} (hs : s.ram.wf) (h : s.i.toNat + x.val ≤ 0xFFF) (a : Nat) :
    (s.ram.writeBytes s.i.toNat (s.regsUpTo x)).byte a = s.afterStoreRegs x a := by
  have hx := x.isLt
  have hlen := s.length_regsUpTo x
  have range : (s.i.toNat ≤ a ∧ a - s.i.toNat < (s.regsUpTo x).length) ↔
      s.i.toNat ≤ a ∧ a ≤ s.i.toNat + x.val := by omega
  rw [Memory.byte_writeBytes hs (by rw [hlen, Config.memSize]; omega), State.afterStoreRegs]
  simp only [range]
  split
  case isTrue hc =>
    have hk : a - s.i.toNat < 16 := by omega
    rw [s.getElem_regsUpTo x (range.2 hc).2 hk]
    exact congrArg s.reg (Fin.ext (Nat.mod_eq_of_lt hk).symm)
  case isFalse => rfl

@[simp] theorem length_bcdDigits (b : Byte) : (bcdDigits b).length = 3 := rfl

theorem byte_after_ldBVx {s : State} (x : Reg) (hs : s.ram.wf) (h : s.i.toNat + 2 ≤ 0xFFF) (a : Nat) :
    (s.ram.writeBytes s.i.toNat (bcdDigits (s.reg x))).byte a = s.afterBcd x a := by
  have fits : s.i.toNat + (bcdDigits (s.reg x)).length ≤ Config.memSize := Nat.succ_le_succ h
  have digit := Memory.byte_writeBytes_inside (bcdDigits (s.reg x)) s.ram s.i.toNat hs fits
  unfold State.afterBcd
  split
  case isTrue h0 => exact h0 ▸ digit 0 (by simp)
  split
  case isTrue h1 => exact h1 ▸ digit 1 (by simp)
  split
  case isTrue h2 => exact h2 ▸ digit 2 (by simp)
  case isFalse h0 h1 h2 =>
    exact Memory.byte_writeBytes_outside _ _ _ _ (by rw [length_bcdDigits]; omega)

/-! ## The fetch after a store (R75) -/

theorem execEffect_halted (i : Instr) (s : State) : (execEffect i s).halted = s.halted :=
  execEffect_same i s .halted (by simp)

/-- R128: the step of a fetched instruction whose guard names no fault. -/
theorem step_of_noFault {s : State} {i : Instr} (hi : s.Fetches i) (hf : execFault i (s.latch s.wordAtPc) = none) :
    step s = .next ((execEffect i (s.latch s.wordAtPc)).tick.report .ok) := by
  obtain ⟨can, hd⟩ := hi
  have running : (execEffect i (s.latch s.wordAtPc)).halted = false :=
    (execEffect_halted i _).trans can.1
  simp [step, stepWith, runWord, can.1, State.fetch_of_canFetch can, hd, exec_of_noFault hf, finish_next, running]

/-- An instruction that falls through and leaves RAM as `after` says is followed by the fetch of the bytes of
`after`. -/
theorem refetches_of_effect {s : State} {i : Instr} {after : Nat → Byte} (hi : s.Fetches i)
    (hf : execFault i (s.latch s.wordAtPc) = none) (hpc : s.pc.toNat ≤ 0xFFC)
    (next : (execEffect i (s.latch s.wordAtPc)).pc = s.pc + 2#16)
    (ram : ∀ a, (execEffect i (s.latch s.wordAtPc)).ram.byte a = after a) : Refetches s after := by
  have answer := step_of_noFault hi hf
  refine ⟨_, answer, (step_inv answer).opcode_of_canFetch hi.1, ?_⟩
  have pcNext : (execEffect i (s.latch s.wordAtPc)).pc.toNat = s.pc.toNat + 2 := by
    rw [next, BitVec.toNat_add]
    exact Nat.mod_eq_of_lt (Nat.lt_of_le_of_lt (Nat.add_le_add_right hpc 2) (by decide))
  have canNext : ((execEffect i (s.latch s.wordAtPc)).tick.report .ok).CanFetch :=
    ⟨(execEffect_halted i _).trans hi.1.1, pcNext.trans_le (Nat.add_le_add_right hpc 2)⟩
  simpa [pcNext, ram] using (fetchLatchesTheWord _).1 canNext

/-- Settles O10: both instructions fall through, and RAM after each is what `afterStoreRegs` and `afterBcd` say. -/
theorem storedWordIsFetchedNext : Obligations.StoredWordIsFetchedNext := by
  intro s x hs hpc
  refine ⟨fun hi hx => ?_, fun hi hx => ?_⟩
  · have noFault : execFault (.storeRegs x) (s.latch s.wordAtPc) = none :=
      Option.map_eq_none_iff.2 (s.transferBad_of_le hx)
    exact refetches_of_effect hi noFault hpc rfl (byte_after_storeRegs hs hx)
  · have noFault : execFault (.ldBVx x) (s.latch s.wordAtPc) = none :=
      Option.map_eq_none_iff.2 (s.transferBad_of_le hx)
    exact refetches_of_effect hi noFault hpc rfl (byte_after_ldBVx x hs hx)

end Sys2Proof.Machine
end

section
/-! Proofs about the encoding (30_encoding.md): the fields of a word as numbers, the rows of the opcode map against the
decoder, what the decoder answers for any word, and the statements O1 to O8. -/

namespace Sys2Proof.Machine

/-! ## The fields of a word as numbers (R91) -/

/-- Settles O1: a field is a slice of the word, so a quotient of it, reduced. -/
theorem fieldsAreTheStatedBits : Obligations.FieldsAreTheStatedBits := by
  intro w
  have hw := w.isLt
  simp only [fieldF, fieldX, fieldY, fieldN, fieldNN, fieldNNN, BitVec.val_toFin, BitVec.extractLsb'_toNat,
    Nat.shiftRight_eq_div_pow, true_and]
  omega

theorem fieldF_eq_iff {w : Word} {f : BitVec 4} : fieldF w = f ↔ w.toNat / 4096 = f.toNat := by
  rw [← BitVec.toNat_inj, (fieldsAreTheStatedBits w).1]

theorem fieldN_mem_iff {w : Word} {l : List (BitVec 4)} : fieldN w ∈ l ↔ w.toNat % 16 ∈ l.map BitVec.toNat := by
  obtain ⟨-, -, -, hN, -⟩ := fieldsAreTheStatedBits w
  rw [← hN, List.mem_map_of_injective BitVec.toNat_injective]

theorem fieldNN_mem_iff {w : Word} {l : List Byte} : fieldNN w ∈ l ↔ w.toNat % 256 ∈ l.map BitVec.toNat := by
  obtain ⟨-, -, -, -, hNN, -⟩ := fieldsAreTheStatedBits w
  rw [← hNN, List.mem_map_of_injective BitVec.toNat_injective]

/-! ## Byte strings (R90) -/

/-- Settles O2: the two bytes in front are one big-endian word. -/
theorem instructionIsTwoBytes : Obligations.InstructionIsTwoBytes :=
  ⟨fun hi lo rest => by rw [decode, wordOfBytes_eq], fun _ => rfl, rfl, fun _ => rfl⟩

/-- Settles O3, by running the decoder on each word. -/
theorem writtenWordsDecode : Obligations.WrittenWordsDecode := by
  unfold Obligations.WrittenWordsDecode
  decide

/-! ## The rows of the opcode map are decoded (R94-R99) -/

/-- A slice that lies inside a mask is the same in two words that agree under the mask. -/
theorem extractLsb'_eq_of_mask {w u m : Word} (h : w &&& m = u &&& m) (k n : Nat)
    (hm : m.extractLsb' k n = BitVec.allOnes n) : w.extractLsb' k n = u.extractLsb' k n := by
  have agree := congrArg (BitVec.extractLsb' k n) h
  rwa [BitVec.extractLsb'_and, BitVec.extractLsb'_and, hm, BitVec.and_allOnes, BitVec.and_allOnes] at agree

/-- Every mask covers F, and no pattern has a bit outside its mask. -/
theorem row_mask_pattern :
    ∀ r ∈ opcodeMap, r.mask.extractLsb' 12 4 = BitVec.allOnes 4 ∧ r.pattern = r.pattern &&& r.mask := by
  decide

/-- R99: the decoder tests the fields that lie inside the row's mask, and there the word is the row's pattern. -/
theorem encodes_of_mem_opcodeMap {r : MapRow} (hr : r ∈ opcodeMap) : Encodes r.mask r.pattern r.build := by
  intro w h
  obtain ⟨maskF, patternInMask⟩ := row_mask_pattern r hr
  have agree := extractLsb'_eq_of_mask (h.trans patternInMask)
  have hF : fieldF w = r.pattern.extractLsb' 12 4 := agree 12 4 maskF
  have hN : r.mask.extractLsb' 0 4 = BitVec.allOnes 4 → fieldN w = r.pattern.extractLsb' 0 4 := agree 0 4
  have hNN : r.mask.extractLsb' 0 8 = BitVec.allOnes 8 → fieldNN w = r.pattern.extractLsb' 0 8 := agree 0 8
  clear h maskF patternInMask agree
  fin_cases hr <;>
    simp [decodeWord, decodeFamily0, decodeFamily8, decodeFamilyE, decodeFamilyF, hF, hN, hNN]

/-- Two rows' patterns differ under both masks. -/
theorem opcodeMap_patterns_clash :
    opcodeMap.Pairwise fun r q => r.pattern &&& q.mask ≠ q.pattern &&& r.mask := by
  decide

/-- Settles O4: a word of two rows would have both patterns under both masks. -/
theorem opcodeMapIsDecoded : Obligations.OpcodeMapIsDecoded := by
  refine ⟨rfl, fun _ => encodes_of_mem_opcodeMap, opcodeMap_patterns_clash.imp fun {r q} clash w ⟨hr, hq⟩ => clash ?_⟩
  rw [← hr, ← hq, BitVec.and_assoc, BitVec.and_assoc, BitVec.and_comm r.mask]

/-! ## Decode after encode -/

open Laws.EncodingRow in
/-- The encoder's word of every instruction lies in the instruction's own row. -/
theorem encodingRow : ∀ i, Statement i
  | .cls => cls | .ret => ret | .jp a => jp a | .call a => call a
  | .seByte x b => seByte x b | .sneByte x b => sneByte x b | .seReg x y => seReg x y
  | .ldByte x b => ldByte x b | .addByte x b => addByte x b | .ldReg x y => ldReg x y
  | .orReg x y => orReg x y | .andReg x y => andReg x y | .xorReg x y => xorReg x y
  | .addReg x y => addReg x y | .subReg x y => subReg x y | .shr x y => shr x y
  | .subnReg x y => subnReg x y | .shl x y => shl x y | .sneReg x y => sneReg x y
  | .ldI a => ldI a | .jpV0 a => jpV0 a | .rnd x b => rnd x b | .drw x y n => drw x y n
  | .skp x => skp x | .sknp x => sknp x | .ldVxDt x => ldVxDt x | .ldVxK x => ldVxK x
  | .ldDtVx x => ldDtVx x | .ldStVx x => ldStVx x | .addIVx x => addIVx x | .ldFVx x => ldFVx x
  | .ldBVx x => ldBVx x | .storeRegs x => storeRegs x | .loadRegs x => loadRegs x

theorem decodeWord_encode {i : Instr} (hi : i.wf = true) : decodeWord (encode i) = .ok i := by
  obtain ⟨r, hr, matched, operands⟩ := encodingRow i
  rw [encodes_of_mem_opcodeMap hr _ matched, operands hi]

/-- Settles O7: the encoder's word is in a row of the map, and the row gives the operands back. -/
theorem decodeOfEncodeIsTheInstruction : Obligations.DecodeOfEncodeIsTheInstruction := by
  intro i rest hi
  change (decodeWord (wordOfBytes (highByte (encode i)) (lowByte (encode i)))).map (·, rest) = .ok (i, rest)
  rw [wordOfBytes_high_low, decodeWord_encode hi]
  rfl

/-! ## What the decoder answers for any word (R94-R100) -/

/-- R95-R98: the word lies in the fault's family and its selector is none of the family's instructions. -/
def IsHole (w : Word) : DecodeFault → Prop
  | .truncated => False
  | .family0 v => v = w ∧ fieldF w = 0x0#4 ∧ fieldNN w ∉ [0xE0#8, 0xEE#8]
  | .family8 v =>
    v = w ∧ fieldF w = 0x8#4 ∧ fieldN w ∉ [0x0#4, 0x1#4, 0x2#4, 0x3#4, 0x4#4, 0x5#4, 0x6#4, 0x7#4, 0xE#4]
  | .familyE v => v = w ∧ fieldF w = 0xE#4 ∧ fieldNN w ∉ [0x9E#8, 0xA1#8]
  | .familyF v =>
    v = w ∧ fieldF w = 0xF#4 ∧
      fieldNN w ∉ [0x07#8, 0x0A#8, 0x15#8, 0x18#8, 0x1E#8, 0x29#8, 0x33#8, 0x55#8, 0x65#8]

/-- The answers of the decoder: an instruction whose encoding is the word where it was read, or the fault of the hole
the word lies in. -/
inductive DecodeAnswer (w : Word) : Except DecodeFault Instr → Prop where
  | ok {i : Instr} (wf : i.wf = true) (word : encode i = w &&& readMask i) : DecodeAnswer w (.ok i)
  | error {f : DecodeFault} (hole : IsHole w f) : DecodeAnswer w (.error f)

theorem and_FFFF (w : Word) : w &&& 0xFFFF#16 = w := BitVec.and_allOnes

section Formats

variable {w : Word} {f n : BitVec 4} {b : Byte}

theorem formatA_eq_and (hF : fieldF w = f) : formatA f (fieldNNN w) = w &&& 0xFFFF#16 := by
  rw [← hF, formatA_fields, and_FFFF]

theorem formatXB_eq_and (hF : fieldF w = f) (hNN : fieldNN w = b) : formatXB f (fieldX w) b = w &&& 0xFFFF#16 := by
  rw [← hF, ← hNN, formatXB_fields, and_FFFF]

theorem formatXYN_eq_and (hF : fieldF w = f) (hN : fieldN w = n) :
    formatXYN f (fieldX w) (fieldY w) n = w &&& 0xFFFF#16 := by
  rw [← hF, ← hN, formatXYN_fields, and_FFFF]

theorem formatXYN_zero_eq_and (hF : fieldF w = f) : formatXYN f (fieldX w) (fieldY w) 0x0#4 = w &&& 0xFFF0#16 := by
  rw [← hF, and_FFF0, formatXYN]

theorem formatXB_zero_eq_and (hF : fieldF w = f) (hNN : fieldNN w = b) : formatXB f 0 b = w &&& 0xF0FF#16 := by
  rw [← hF, ← hNN, and_F0FF]
  rfl

end Formats

theorem decodeFamily0_answer {w : Word} (hF : fieldF w = 0x0#4) : DecodeAnswer w (decodeFamily0 w) := by
  unfold decodeFamily0
  iterate 2 refine iteInduction (fun h => .ok rfl (formatXB_zero_eq_and hF h)) fun _ => ?_
  exact .error ⟨rfl, hF, by simp [*]⟩

theorem decodeFamily8_answer {w : Word} (hF : fieldF w = 0x8#4) : DecodeAnswer w (decodeFamily8 w) := by
  unfold decodeFamily8
  iterate 9 refine iteInduction (fun h => .ok rfl (formatXYN_eq_and hF h)) fun _ => ?_
  exact .error ⟨rfl, hF, by simp [*]⟩

theorem decodeFamilyE_answer {w : Word} (hF : fieldF w = 0xE#4) : DecodeAnswer w (decodeFamilyE w) := by
  unfold decodeFamilyE
  iterate 2 refine iteInduction (fun h => .ok rfl (formatXB_eq_and hF h)) fun _ => ?_
  exact .error ⟨rfl, hF, by simp [*]⟩

theorem decodeFamilyF_answer {w : Word} (hF : fieldF w = 0xF#4) : DecodeAnswer w (decodeFamilyF w) := by
  unfold decodeFamilyF
  iterate 9 refine iteInduction (fun h => .ok rfl (formatXB_eq_and hF h)) fun _ => ?_
  exact .error ⟨rfl, hF, by simp [*]⟩

theorem decodeWord_answer (w : Word) : DecodeAnswer w (decodeWord w) := by
  have families : ∀ f : BitVec 4, f ∉ [0x0#4, 0x1#4, 0x2#4, 0x3#4, 0x4#4, 0x5#4, 0x6#4, 0x7#4, 0x8#4, 0x9#4, 0xA#4,
    0xB#4, 0xC#4, 0xD#4, 0xE#4] → f = 0xF#4 := by decide
  unfold decodeWord
  refine iteInduction decodeFamily0_answer fun _ => ?_
  refine iteInduction (fun h => .ok rfl (formatA_eq_and h)) fun _ => ?_
  refine iteInduction (fun h => .ok rfl (formatA_eq_and h)) fun _ => ?_
  refine iteInduction (fun h => .ok rfl (formatXB_eq_and h rfl)) fun _ => ?_
  refine iteInduction (fun h => .ok rfl (formatXB_eq_and h rfl)) fun _ => ?_
  refine iteInduction (fun h => .ok rfl (formatXYN_zero_eq_and h)) fun _ => ?_
  refine iteInduction (fun h => .ok rfl (formatXB_eq_and h rfl)) fun _ => ?_
  refine iteInduction (fun h => .ok rfl (formatXB_eq_and h rfl)) fun _ => ?_
  refine iteInduction decodeFamily8_answer fun _ => ?_
  refine iteInduction (fun h => .ok rfl (formatXYN_zero_eq_and h)) fun _ => ?_
  refine iteInduction (fun h => .ok rfl (formatA_eq_and h)) fun _ => ?_
  refine iteInduction (fun h => .ok rfl (formatA_eq_and h)) fun _ => ?_
  refine iteInduction (fun h => .ok rfl (formatXB_eq_and h rfl)) fun _ => ?_
  refine iteInduction (fun h => .ok (decide_eq_true (fieldN w).isLt) (formatXYN_eq_and h (by simp))) fun _ => ?_
  exact iteInduction decodeFamilyE_answer fun _ => decodeFamilyF_answer (families _ (by simp [*]))

/-- Settles O8: it is what the decoder's answer says of an instruction. -/
theorem encodeOfDecodeIsTheWord : Obligations.EncodeOfDecodeIsTheWord := by
  intro w i h
  have answer := decodeWord_answer w
  rw [h] at answer
  cases answer with
  | ok wf word => exact ⟨wf, word⟩

/-! ## The decode-fault words (R100) -/

theorem decodeWord_eq_error_of_hole {w : Word} : ∀ {f : DecodeFault}, IsHole w f → decodeWord w = .error f
  | .family0 _, ⟨rfl, hF, hNN⟩ => by simp_all [decodeWord, decodeFamily0]
  | .family8 _, ⟨rfl, hF, hN⟩ => by simp_all [decodeWord, decodeFamily8]
  | .familyE _, ⟨rfl, hF, hNN⟩ => by simp_all [decodeWord, decodeFamilyE]
  | .familyF _, ⟨rfl, hF, hNN⟩ => by simp_all [decodeWord, decodeFamilyF]

theorem decodeWord_eq_error_iff {w : Word} {f : DecodeFault} : decodeWord w = .error f ↔ IsHole w f := by
  refine ⟨fun h => ?_, decodeWord_eq_error_of_hole⟩
  have answer := decodeWord_answer w
  rw [h] at answer
  cases answer with
  | error hole => exact hole

/-- R96: the selectors of family 8 outside its nine instructions are the seven listed. -/
theorem family8_hole_iff : ∀ n : BitVec 4,
    n ∉ [0x0#4, 0x1#4, 0x2#4, 0x3#4, 0x4#4, 0x5#4, 0x6#4, 0x7#4, 0xE#4] ↔
      n ∈ [0x8#4, 0x9#4, 0xA#4, 0xB#4, 0xC#4, 0xD#4, 0xF#4] := by
  decide

/-- Settles O5: the faults are the decoder's holes, read as numbers. -/
theorem decodeFaultWords : Obligations.DecodeFaultWords := by
  intro w
  simp only [decodeWord_eq_error_iff, IsHole, true_and, fieldF_eq_iff, fieldNN_mem_iff]
  refine ⟨Iff.rfl, and_congr_right' ?_, Iff.rfl, Iff.rfl, fun f hole => ?_⟩
  · exact (family8_hole_iff _).trans fieldN_mem_iff
  cases f with
  | truncated => exact hole.elim
  | family0 v | family8 v | familyE v | familyF v => simp [hole.1]

/-! ## Bits no decoder reads (R102) -/

theorem decodeWord_of_family0 {w : Word} (hF : fieldF w = 0x0#4) : decodeWord w = decodeFamily0 w := by
  simp [decodeWord, hF]

/-- R95: bits 11-8 of a family 0 instruction are not examined. -/
theorem decodeWord_family0_congr {w u : Word} {i : Instr} (h : w &&& 0xF0FF#16 = u &&& 0xF0FF#16)
    (hF : w.toNat / 4096 = 0) (hw : decodeWord w = .ok i) : decodeWord u = .ok i := by
  have wF : fieldF w = 0x0#4 := fieldF_eq_iff.2 hF
  have uF : fieldF u = 0x0#4 := (extractLsb'_eq_of_mask h 12 4 (by decide)).symm.trans wF
  have sameNN : fieldNN w = fieldNN u := extractLsb'_eq_of_mask h 0 8 (by decide)
  rw [decodeWord_of_family0 wF, decodeFamily0, sameNN] at hw
  rw [decodeWord_of_family0 uF, decodeFamily0]
  split_ifs at hw ⊢ <;> assumption

/-- R94: bits 3-0 of families 5 and 9 are not examined. -/
theorem decodeWord_families59_congr {w u : Word} (h : w &&& 0xFFF0#16 = u &&& 0xFFF0#16)
    (hF : w.toNat / 4096 = 5 ∨ w.toNat / 4096 = 9) : decodeWord w = decodeWord u := by
  have same := extractLsb'_eq_of_mask h
  have sameF : fieldF w = fieldF u := same 12 4 (by decide)
  have sameX : fieldX w = fieldX u := congrArg BitVec.toFin (same 8 4 (by decide))
  have sameY : fieldY w = fieldY u := congrArg BitVec.toFin (same 4 4 (by decide))
  have wF : fieldF w = 0x5#4 ∨ fieldF w = 0x9#4 := hF.imp fieldF_eq_iff.2 fieldF_eq_iff.2
  rcases wF with wF | wF <;> simp [decodeWord, wF, ← sameF, sameX, sameY]

/-- Settles O6: the fields the decoder tests lie outside those bits, and the shifts do not read Y. -/
theorem unreadBitsHaveNoEffect : Obligations.UnreadBitsHaveNoEffect :=
  ⟨fun _ _ => decodeWord_family0_congr, fun _ _ => decodeWord_family0_congr,
    fun _ _ => decodeWord_families59_congr, fun _ _ _ _ => ⟨rfl, rfl⟩⟩

end Sys2Proof.Machine
end

section
/-! Proofs about the step cycle (40_step_cycle.md): the answer of a step by what it fetches, its outcome, the timers
after it and pc after each instruction, and the statements O11, O12, O13, O15, O16 and O17. -/

namespace Sys2Proof.Machine

/-! ## The answer of a step (R120-R128) -/

/-- R120, R122: a running machine that fetches `i` executes it with its word latched. -/
theorem step_of_fetches {s : State} {i : Instr} (hi : s.Fetches i) :
    step s = finish (exec i (s.latch s.wordAtPc)) := by
  obtain ⟨can, hd⟩ := hi
  simp [step, stepWith, runWord, can.1, State.fetch_of_canFetch can, hd]

/-- Settles O11: the answer is `finish` of the execute phase, and a timer counts down as a number. -/
theorem stepRunsTheDecodedInstruction : Obligations.StepRunsTheDecodedInstruction := by
  intro s t i hi he
  have ticked : t.tick.report .ok = { t with
      dt := BitVec.ofNat 8 (t.dt.toNat - 1), st := BitVec.ofNat 8 (t.st.toNat - 1), stepOutcome := .ok } := by
    simp only [State.tick, State.report, countDown_eq]
  calc step s = finish (exec i (s.latch s.wordAtPc)) := step_of_fetches hi
    _ = finish (.next t) := congrArg finish he
    _ = _ := by rw [finish_next, ticked]; rfl

theorem step_of_halted {s : State} (h : s.halted = true) : step s = .next (s.report .halted) := by
  simp [step, stepWith, h]

/-- Settles O12: a halted machine is asked for before any fetch. -/
theorem haltedStepChangesNothing : Obligations.HaltedStepChangesNothing := fun _ => step_of_halted

/-- R121: a fetch outside RAM is a fatal fault at the lowest address outside RAM. -/
theorem step_of_fetchFault {s : State} (hs : s.halted = false) (hp : s.pc.toNat > 0xFFE) :
    step s = .next ((s.fatalFault .fetchRange 0#16 (BitVec.ofNat 16 (max s.pc.toNat 0x1000))).report .fault) := by
  simp [step, stepWith, hs, s.fetch_eq_error.2 ⟨hp, rfl⟩]

/-- Settles O13: the address of the record is 0x1000 exactly when pc is 0xFFF, and pc above that. -/
theorem fetchOutsideRamIsFatal : Obligations.FetchOutsideRamIsFatal := by
  intro s hs hp
  have bad : (BitVec.ofNat 16 (max s.pc.toNat 0x1000)).toNat =
      if s.pc.toNat > 0xFFF then s.pc.toNat else s.pc.toNat + 1 := by
    have := s.pc.isLt
    rw [BitVec.toNat_ofNat]
    split <;> omega
  exact ⟨_, step_of_fetchFault hs hp, ⟨rfl, rfl, rfl, rfl, bad⟩, rfl, by simp⟩

/-! ## The outcome of a step (R126) -/

/-- Settles O15: each of the five cases of a step has one outcome. -/
theorem everyStepCompletes : Obligations.EveryStepCompletes := by
  intro s
  obtain ⟨t, ht, hc⟩ := step_cases s
  refine ⟨t, ht, ?_⟩
  cases hc with
  | halted hh => simp [hh]
  | fetchFault hh hp => simp [hh]
  | decodeFault can hd => simp [can.1, hd, State.decodeFault]
  | execFault can hd hc he => simp [can.1]
  | executed can hd he hu =>
    have latched : _ = s.wordAtPc := exec_opcode he
    simp [can.1, hu, latched, hd]

/-! ## The timers (R125) -/

theorem execEffect_dt {i : Instr} (hi : .dt ∉ writeTable i) (s : State) : (execEffect i s).dt = s.dt :=
  execEffect_keepsAllBut i s .dt (by simpa using hi)

theorem execEffect_st {i : Instr} (hi : .st ∉ writeTable i) (s : State) : (execEffect i s).st = s.st :=
  execEffect_keepsAllBut i s .st (by simpa using hi)

/-- R125, R252: the instruction of an executed step sets a timer from V[x] or leaves it, and then both count down. -/
theorem timers_of_executed (i : Instr) (s : State) :
    (execEffect i s).tick.dt.toNat = (match i with | .ldDtVx x => (s.reg x).toNat | _ => s.dt.toNat) - 1 ∧
    (execEffect i s).tick.st.toNat = (match i with | .ldStVx x => (s.reg x).toNat | _ => s.st.toNat) - 1 := by
  simp only [State.tick_dt, State.tick_st, toNat_countDown]
  cases i with
  | ldDtVx | ldStVx => exact ⟨rfl, rfl⟩
  | _ => simp [execEffect_dt, execEffect_st, writeTable]

/-- R125: FX07 copies DT as the execute phase finds it. -/
theorem reg_after_ldVxDt {s : State} {x : Reg} (hi : s.Fetches (.ldVxDt x)) : Steps s fun t => t.reg x = s.dt :=
  ⟨_, step_of_noFault hi rfl, (s.latch s.wordAtPc).reg_setReg_same x s.dt⟩

/-- R234: an FX0A that finds no key has no effect. -/
theorem execEffect_ldVxK_of_noKey {s : State} (hk : ∀ k : Fin 16, s.keys[k] = false) (x : Reg) :
    execEffect (.ldVxK x) s = s := by
  simp only [execEffect, s.leastKey_eq_none.2 hk, Option.elim_none]

/-- Settles O16: the timers tick in two of the five cases of a step, a skipped fault and an executed instruction. -/
theorem timersTickOncePerStep : Obligations.TimersTickOncePerStep := by
  refine ⟨fun s t h => ?_, fun s x => reg_after_ldVxDt, fun s x hi hk => ?_⟩
  · cases step_inv h with
    | halted | fetchFault | execFault => simp
    | decodeFault => simp [State.decodeFault, toNat_countDown]
    | executed can hd he hu =>
      refine ⟨fun _ i hi => ?_, by simp, by simp⟩
      rw [(step_inv h).opcode_of_canFetch can, hd] at hi
      obtain rfl := Except.ok.inj hi
      obtain ⟨-, rfl⟩ := exec_completed he hu
      exact timers_of_executed _ (s.latch s.wordAtPc)
  · have waits := execEffect_ldVxK_of_noKey (s := s.latch s.wordAtPc) hk x
    refine ⟨_, step_of_noFault hi rfl, ?_⟩
    rw [waits]
    exact ⟨rfl, toNat_countDown _, toNat_countDown _⟩

/-! ## pc after an instruction (R124) -/

theorem toNat_pc_jump_addrWord (s : State) (nnn : Addr) : (s.jump (addrWord nnn)).pc.toNat = nnn.toNat % 65536 :=
  (toNat_addrWord nnn).trans (Nat.mod_eq_of_lt (by omega)).symm

theorem toNat_indexedTarget (s : State) (nnn : Addr) :
    (s.indexedTarget nnn).toNat = (nnn.toNat + (s.reg 0).toNat) % 65536 := by
  rw [State.indexedTarget, BitVec.toNat_add, toNat_addrWord, BitVec.toNat_setWidth]
  omega

/-- A skip goes on at pc + 4 when its condition holds, else at pc + 2. -/
theorem toNat_pc_skipIf {s : State} {c : Bool} {p : Prop} [Decidable p] (h : c = true ↔ p) :
    (s.skipIf c).pc.toNat = (if p then s.pc.toNat + 4 else s.pc.toNat + 2) % 65536 := by
  simp only [State.skipIf_pc, h]
  split <;> exact BitVec.toNat_add _ _

theorem anyKey_iff_exists (s : State) : s.anyKey = true ↔ ∃ k : Fin 16, s.keys[k] = true := by
  simp [State.anyKey, Vector.any_eq_true, Fin.exists_iff]

/-- The search of FX0A finds a key when there is one. -/
theorem anyKey_eq_isSome_leastKey (s : State) : s.anyKey = s.leastKey.isSome := by
  rw [Bool.eq_iff_iff, anyKey_iff_exists, ← Option.ne_none_iff_isSome, ne_eq, s.leastKey_eq_none]
  simp

/-- R124: pc after an instruction that takes no fault. -/
theorem execEffect_pc {i : Instr} {s : State} (hf : execFault i s = none) :
    (execEffect i s).pc.toNat = pcTable s i % 65536 := by
  have next : (s.pc + 2#16).toNat = (s.pc.toNat + 2) % 65536 := BitVec.toNat_add _ _
  cases i with
  | ret =>
    have slot : s.sp.val - 1 < 16 := by omega
    simp only [execEffect, State.jump_pc, pcTable, getElem!_pos, slot]
    exact BitVec.toNat_add _ _
  | jp nnn | call nnn => exact toNat_pc_jump_addrWord _ nnn
  | jpV0 nnn => exact toNat_indexedTarget s nnn
  | seByte | seReg => exact toNat_pc_skipIf beq_iff_eq
  | sneByte | sneReg => exact toNat_pc_skipIf bne_iff_ne
  | skp x | sknp x =>
    have hx : (s.reg x).toNat < 16 := Nat.lt_succ_of_le (by simpa [execFault] using hf)
    exact toNat_pc_skipIf (by simp [s.key?_of_lt hx, getElem!_pos, hx])
  | ldVxK x =>
    simp only [execEffect, pcTable, anyKey_eq_isSome_leastKey]
    cases s.leastKey
    · exact (Nat.mod_eq_of_lt s.pc.isLt).symm
    · exact next
  | _ => exact next

/-- Settles O17: an execute phase that leaves the machine running took no fault. -/
theorem pcFollowsTheTable : Obligations.PcFollowsTheTable := by
  intro i s t _ he ht
  obtain ⟨hf, rfl⟩ := exec_completed he ht
  exact execEffect_pc hf

end Sys2Proof.Machine
end

section
/-! Proofs about control flow (41_control_flow.md): the stack after a push and a pop, pc after a skip, runs of OK steps
cut into shorter runs, and the statements O28, O29 and O31 to O35. -/

namespace Sys2Proof.Machine

/-! ## One instruction -/

/-- An instruction whose guard names no fault completes with every property of its effect. -/
theorem completes_of_noFault {i : Instr} {s : State} {Q : State → Prop} (hf : execFault i s = none)
    (hQ : Q (execEffect i s)) : Completes i s Q :=
  ⟨_, exec_of_noFault hf, hQ⟩

/-- A row of the opcode map, given by its three columns. -/
theorem encodes_of_row {mask pattern : Word} {build : Word → Instr} (h : ⟨mask, pattern, build⟩ ∈ opcodeMap) :
    Encodes mask pattern build :=
  encodes_of_mem_opcodeMap h

/-! ## Jumps and skips (R141, R143-R147) -/

/-- Settles O31: the word is in the row of 1NNN, and the effect is a jump to NNN. -/
theorem jumpGoesToItsTarget : Obligations.JumpGoesToItsTarget :=
  ⟨encodes_of_row (by simp [opcodeMap]),
    fun s nnn => completes_of_noFault rfl ⟨toNat_addrWord nnn, execEffect_keepsAllBut (.jp nnn) s⟩⟩

/-- R147: NNN + V0 fits a word, so the target is the sum itself. -/
theorem toNat_indexedTarget_eq_add (s : State) (nnn : Addr) :
    (s.indexedTarget nnn).toNat = nnn.toNat + (s.reg 0).toNat := by
  rw [toNat_indexedTarget]
  exact Nat.mod_eq_of_lt (by omega)

/-- Settles O32: the word is in the row of BNNN, and the effect is a jump to the whole sum. -/
theorem computedJumpHasNoMask : Obligations.ComputedJumpHasNoMask :=
  ⟨encodes_of_row (by simp [opcodeMap]),
    fun s nnn => completes_of_noFault rfl ⟨toNat_indexedTarget_eq_add s nnn, execEffect_keepsAllBut (.jpV0 nnn) s⟩⟩

theorem pc_skipIf_beq (s : State) (a b : Byte) :
    (s.skipIf (a == b)).pc = s.pc + (if a = b then 4#16 else 2#16) := by
  by_cases h : a = b <;> simp [h]

theorem pc_skipIf_bne (s : State) (a b : Byte) :
    (s.skipIf (a != b)).pc = s.pc + (if a = b then 2#16 else 4#16) := by
  by_cases h : a = b <;> simp [h]

/-- Settles O33: the words are in their rows, and each effect is a skip on the comparison with NN. -/
theorem byteSkipsCompareWithImmediate : Obligations.ByteSkipsCompareWithImmediate :=
  ⟨encodes_of_row (by simp [opcodeMap]), encodes_of_row (by simp [opcodeMap]), fun s x nn =>
    ⟨completes_of_noFault rfl ⟨pc_skipIf_beq s (s.reg x) nn, execEffect_keepsAllBut (.seByte x nn) s⟩,
     completes_of_noFault rfl ⟨pc_skipIf_bne s (s.reg x) nn, execEffect_keepsAllBut (.sneByte x nn) s⟩⟩⟩

/-- Settles O34: each effect is a skip on the comparison of the registers; a register equals itself. -/
theorem registerSkipsCompareRegisters : Obligations.RegisterSkipsCompareRegisters := by
  intro s x y
  have eqPc := pc_skipIf_beq s (s.reg x)
  have nePc := pc_skipIf_bne s (s.reg x)
  exact ⟨completes_of_noFault rfl ⟨eqPc (s.reg y), execEffect_keepsAllBut (.seReg x y) s⟩,
    completes_of_noFault rfl ⟨nePc (s.reg y), execEffect_keepsAllBut (.sneReg x y) s⟩,
    completes_of_noFault rfl ((eqPc (s.reg x)).trans (by rw [if_pos rfl])),
    completes_of_noFault rfl ((nePc (s.reg x)).trans (by rw [if_pos rfl]))⟩

/-! ## Calls and returns (R140, R142) -/

theorem State.pushed_sp {s : State} (h : s.sp.val < 16) : s.pushed.sp.val = s.sp.val + 1 :=
  Nat.mod_eq_of_lt (Nat.add_lt_add_right h 1)

theorem State.pushed_stack_top {s : State} (h : s.sp.val < 16) : s.pushed.stack[s.sp.val] = s.pc := by
  simp [State.pushed]

theorem State.pushed_stack_other {s : State} {j : Fin 16} (h : j.val ≠ s.sp.val) :
    s.pushed.stack[j] = s.stack[j] := by
  simp [State.pushed, Fin.getElem_fin, h.symm]

theorem execFault_ret_eq_none {s : State} : execFault .ret s = none ↔ 0 < s.sp.val := by
  simp [execFault, Nat.pos_iff_ne_zero]

theorem execFault_call_eq_none {s : State} {nnn : Addr} :
    execFault (.call nnn) s = none ↔ s.sp.val < 16 := by
  have := s.sp.isLt
  simp only [execFault, ite_eq_right_iff, reduceCtorEq, imp_false]
  omega

/-- Settles O28: the guard of 00EE is an empty stack, and its effect a pop and a jump. -/
theorem returnGoesPastTheCall : Obligations.ReturnGoesPastTheCall := fun s h =>
  completes_of_noFault (execFault_ret_eq_none.2 h) ⟨BitVec.toNat_add _ _, rfl, execEffect_keepsAllBut .ret s⟩

/-- Settles O29: the guard of 2NNN is a full stack, and its effect a push and a jump. -/
theorem callPushesItsOwnAddress : Obligations.CallPushesItsOwnAddress := fun s nnn h =>
  completes_of_noFault (execFault_call_eq_none.2 h)
    ⟨toNat_addrWord nnn, s.pushed_sp h, s.pushed_stack_top h, fun _ => s.pushed_stack_other,
      execEffect_keepsAllBut (.call nnn) s⟩

/-! ## Runs of OK steps (R148) -/

/-- A run of a sequence in two parts is a run of the first and a run of the second. -/
theorem Executes.append_inv {p q : List Instr} {s u : State} (h : Executes (p ++ q) s u) :
    ∃ t, Executes p s t ∧ Executes q t u := by
  induction p generalizing s with
  | nil => exact ⟨s, .done s, h⟩
  | cons i p ih =>
    cases h with
    | step hs ok hi rest =>
      obtain ⟨t, first, second⟩ := ih rest
      exact ⟨t, .step hs ok hi first, second⟩

/-- A run of one instruction is a step that fetched it and had its effect. -/
theorem Executes.single_inv {i : Instr} {s t : State} (h : Executes [i] s t) :
    s.CanFetch ∧ execFault i (s.latch s.wordAtPc) = none ∧
      t = (execEffect i (s.latch s.wordAtPc)).tick.report .ok := by
  cases h with
  | step hs ok hi rest =>
    cases rest
    cases step_inv hs with
    | executed can hd he hu =>
      rw [(step_inv hs).opcode_of_canFetch can, hd] at hi
      obtain rfl := Except.ok.inj hi
      obtain ⟨hf, rfl⟩ := exec_completed he hu
      exact ⟨can, hf, rfl⟩
    | _ => cases ok

/-- What a balanced run keeps of the stack: its depth and the occupied slots. -/
structure KeepsCallers (s t : State) : Prop where
  sp : t.sp = s.sp
  slots : ∀ j : Fin 16, j.val < s.sp.val → t.stack[j] = s.stack[j]

theorem KeepsCallers.refl (s : State) : KeepsCallers s s := ⟨rfl, fun _ _ => rfl⟩

theorem KeepsCallers.trans {s t u : State} (h : KeepsCallers s t) (h' : KeepsCallers t u) : KeepsCallers s u :=
  ⟨h'.sp.trans h.sp, fun j hj => (h'.slots j (h.sp ▸ hj)).trans (h.slots j hj)⟩

/-- R20: only a call and a return write to the stack. -/
theorem keepsCallers_of_other {i : Instr} {s t : State} (hc : ∀ nnn, i ≠ .call nnn) (hr : i ≠ .ret)
    (h : Executes [i] s t) : KeepsCallers s t := by
  obtain ⟨-, -, rfl⟩ := h.single_inv
  have kept := execEffect_keepsAllBut i (s.latch s.wordAtPc)
  have row : .sp ∉ writeTable i ∧ .stack ∉ writeTable i := by
    cases i with
    | call nnn => exact absurd rfl (hc nnn)
    | ret => exact absurd rfl hr
    | _ => simp [writeTable]
  have sameStack : (execEffect i (s.latch s.wordAtPc)).stack = s.stack := kept .stack (by simp [row.2])
  exact ⟨kept .sp (by simp [row.1]), fun j _ => congrArg (·[j]) sameStack⟩

/-- R142: a call that executes occupies one more slot, with its own address, which a fetch found in RAM. -/
theorem Executes.call_inv {nnn : Addr} {s t : State} (h : Executes [.call nnn] s t) :
    s.pc.toNat ≤ 0xFFE ∧ t.sp.val = s.sp.val + 1 ∧ ∃ hs : s.sp.val < 16, t.stack[s.sp.val] = s.pc ∧
      ∀ j : Fin 16, j.val < s.sp.val → t.stack[j] = s.stack[j] := by
  obtain ⟨can, hf, rfl⟩ := h.single_inv
  have hs : (s.latch s.wordAtPc).sp.val < 16 := execFault_call_eq_none.1 hf
  exact ⟨can.2, State.pushed_sp hs, hs, State.pushed_stack_top hs,
    fun j hj => State.pushed_stack_other (Nat.ne_of_lt hj)⟩

/-- R140: a return that executes goes past the address in the last occupied slot and keeps every slot. -/
theorem Executes.ret_inv {s t : State} (h : Executes [.ret] s t) :
    t.sp.val = s.sp.val - 1 ∧ t.stack = s.stack ∧ t.pc = s.stack[s.sp.val - 1] + 2#16 := by
  obtain ⟨-, -, rfl⟩ := h.single_inv
  exact ⟨rfl, rfl, rfl⟩

/-- R148: a call, a run that keeps the callers, and the return: the depth is as before, and pc past the call. -/
theorem callAndReturn_balance {nnn : Addr} {s t u v : State} (call : Executes [.call nnn] s t)
    (body : KeepsCallers t u) (ret : Executes [.ret] u v) :
    KeepsCallers s v ∧ v.pc.toNat = s.pc.toNat + 2 := by
  obtain ⟨inRam, callSp, hs, top, below⟩ := call.call_inv
  obtain ⟨retSp, retStack, retPc⟩ := ret.ret_inv
  have depth : u.sp.val - 1 = s.sp.val := by rw [body.sp, callSp, Nat.add_sub_cancel]
  have slots : ∀ j : Fin 16, j.val ≤ s.sp.val → u.stack[j] = t.stack[j] := fun j hj => body.slots j (by omega)
  have popped : u.stack[s.sp.val] = s.pc := (slots ⟨s.sp.val, hs⟩ le_rfl).trans top
  have kept : KeepsCallers s v :=
    ⟨Fin.ext (retSp.trans depth), fun j hj => by rw [retStack, slots j hj.le, below j hj]⟩
  have past : v.pc = s.pc + 2#16 := by simpa only [depth, popped] using retPc
  refine ⟨kept, ?_⟩
  rw [past, BitVec.toNat_add]
  exact Nat.mod_eq_of_lt (Nat.lt_of_le_of_lt (Nat.add_le_add_right inRam 2) (by decide))

theorem Balanced.keepsCallers {p : List Instr} (hp : Balanced p) {s t : State} (h : Executes p s t) :
    KeepsCallers s t := by
  induction hp generalizing s t with
  | empty =>
    cases h
    exact .refl s
  | other hc hr _ ih =>
    obtain ⟨u, first, rest⟩ := h.append_inv (p := [_])
    exact (keepsCallers_of_other hc hr first).trans (ih rest)
  | pair nnn _ _ ihp ihq =>
    obtain ⟨a, call, h⟩ := h.append_inv (p := [_])
    obtain ⟨b, body, h⟩ := h.append_inv
    obtain ⟨c, ret, rest⟩ := h.append_inv (p := [_])
    exact (callAndReturn_balance call (ihp body) ret).1.trans (ihq rest)

/-- Settles O35, by induction over the balanced sequence; the call and its return are the rule above. -/
theorem balancedCallsReturn : Obligations.BalancedCallsReturn := by
  refine ⟨fun p s t hp h => ?_, fun p nnn s t hp h => ?_⟩
  · obtain ⟨sameSp, slots⟩ := hp.keepsCallers h
    exact ⟨sameSp, slots⟩
  · obtain ⟨a, call, h⟩ := h.append_inv (p := [_])
    obtain ⟨b, body, ret⟩ := h.append_inv
    obtain ⟨kept, past⟩ := callAndReturn_balance call (hp.keepsCallers body) ret
    exact ⟨past, kept.sp⟩

end Sys2Proof.Machine
end

section
/-! Proofs about the register loads and the ALU (42_register_alu.md): the two shapes of an ALU effect, a result without
and with a flag, and the statements O36 to O41. -/

namespace Sys2Proof.Machine

/-! ## The two shapes of an ALU effect -/

section Rules

variable {i : Instr} {s : State} {x : Reg} {r : Byte}

/-- A result in V[X] and pc moved on: what the instruction says of V[X] follows from the result, and the rest is
kept. -/
theorem completes_setReg {Q : State → Prop} (he : exec i s = .next (s.setReg x r).advance)
    (hQ : ∀ t : State, t.reg x = r → Q t) :
    Completes i s fun t => Q t ∧ t.pc = s.pc + 2#16 ∧ KeepsRegsBut [x] s t ∧ KeepsAllBut [.v, .pc] s t :=
  ⟨_, he, hQ _ (s.reg_setReg_same x r), rfl, fun _ hk => s.reg_setReg_other r (List.ne_of_not_mem_cons hk), by simp⟩

/-- A result in V[X], then a flag in VF (R160): VF holds the flag for every X, and V[X] the result unless it is VF. -/
theorem completes_setRegFlag {f : Byte} {flag result : Nat}
    (he : exec i s = .next (s.setRegFlag x r f).advance) (hf : f.toNat = flag) (hr : r.toNat = result) :
    Completes i s fun t =>
      (t.reg 15).toNat = flag ∧ (x ≠ 15 → (t.reg x).toNat = result) ∧
      t.pc = s.pc + 2#16 ∧ KeepsRegsBut [x, 15] s t ∧ KeepsAllBut [.v, .pc] s t := by
  have regs (k : Reg) : (s.setRegFlag x r f).advance.reg k = if k = 15 then f else if k = x then r else s.reg k :=
    s.reg_setRegFlag x k r f
  refine ⟨_, he, ?_, fun hx => ?_, rfl, fun k hk => ?_, by simp⟩
  · rw [regs, if_pos rfl, hf]
  · rw [regs, if_neg hx, if_pos rfl, hr]
  · obtain ⟨hkx, hk15⟩ : k ≠ x ∧ k ≠ 15 := by simpa using hk
    rw [regs, if_neg hk15, if_neg hkx]

end Rules

/-! ## Arithmetic with a flag (R167-R171) -/

/-- Settles O38: the carry and the sum are of the old operands. -/
theorem addSetsCarry : Obligations.AddSetsCarry := fun s x y =>
  completes_setRegFlag rfl (toNat_carryFlag (s.reg x) (s.reg y)) (BitVec.toNat_add (s.reg x) (s.reg y))

theorem toNat_sub_byte (a b : Byte) : (a - b).toNat = (256 + a.toNat - b.toNat) % 256 := by
  rw [BitVec.toNat_sub]
  omega

/-- Settles O39: 8XY5 and 8XY7 are one subtraction with the operands exchanged. -/
theorem subtractionsSetNotBorrow : Obligations.SubtractionsSetNotBorrow := fun s x y =>
  ⟨completes_setRegFlag rfl (toNat_notBorrowFlag (s.reg x) (s.reg y)) (toNat_sub_byte (s.reg x) (s.reg y)),
   completes_setRegFlag rfl (toNat_notBorrowFlag (s.reg y) (s.reg x)) (toNat_sub_byte (s.reg y) (s.reg x))⟩

theorem toNat_shiftRight_one (a : Byte) : (a >>> 1).toNat = a.toNat / 2 := by
  rw [BitVec.toNat_ushiftRight, Nat.shiftRight_one]

theorem toNat_shiftLeft_one (a : Byte) : (a <<< 1).toNat = 2 * a.toNat % 256 := by
  rw [BitVec.toNat_shiftLeft, Nat.shiftLeft_eq, Nat.mul_comm]

/-- Settles O40: the bit shifted out is the remainder of halving, or the quotient by 128. -/
theorem shiftsMoveOneBitToTheFlag : Obligations.ShiftsMoveOneBitToTheFlag := fun s x _ =>
  ⟨completes_setRegFlag rfl (toNat_lsbFlag (s.reg x)) (toNat_shiftRight_one (s.reg x)),
   completes_setRegFlag rfl (toNat_msbFlag (s.reg x)) (toNat_shiftLeft_one (s.reg x))⟩

/-! ## Loads, addition of a byte and logic, without a flag (R161-R166) -/

/-- Settles O36: the words are in their rows, and each effect puts one result in V[X]. -/
theorem immediateLoadAndAdd : Obligations.ImmediateLoadAndAdd :=
  ⟨encodes_of_row (by simp [opcodeMap]), encodes_of_row (by simp [opcodeMap]), fun s x nn =>
    ⟨completes_setReg rfl fun _ hx => hx,
     completes_setReg rfl fun _ hx => by rw [hx, BitVec.toNat_add]⟩⟩

/-- Settles O37: the words are in their rows, and each result is bit by bit the operation on the old bits. -/
theorem copyAndLogicWriteOneRegister : Obligations.CopyAndLogicWriteOneRegister := by
  refine ⟨encodes_of_row (by simp [opcodeMap]), encodes_of_row (by simp [opcodeMap]),
    encodes_of_row (by simp [opcodeMap]), encodes_of_row (by simp [opcodeMap]), ?_⟩
  rintro i s x y op (⟨rfl, rfl⟩ | ⟨rfl, rfl⟩ | ⟨rfl, rfl⟩ | ⟨rfl, rfl⟩)
  · exact completes_setReg rfl fun _ hx j _ => by rw [hx]
  · exact completes_setReg rfl fun _ hx j _ => by rw [hx, BitVec.getLsbD_or]
  · exact completes_setReg rfl fun _ hx j _ => by rw [hx, BitVec.getLsbD_and]
  · exact completes_setReg rfl fun _ hx j _ => by rw [hx, BitVec.getLsbD_xor]

/-! ## The random byte (R172) -/

/-- The register the draw goes to holds the drawn byte under the mask. -/
theorem reg_execEffect_rnd (s : State) (x : Reg) (nn : Byte) :
    (execEffect (.rnd x nn) s).reg x = Config.rand8 s.draws &&& nn :=
  s.reg_setReg_same x (s.randomByte &&& nn)

/-- Settles O41: the draw is masked whatever it is, and the draw counter is the one other part written. -/
theorem randomIsTheDrawUnderTheMask : Obligations.RandomIsTheDrawUnderTheMask := by
  intro s x nn
  have drawn := reg_execEffect_rnd s x nn
  refine completes_of_noFault rfl
    ⟨fun j _ => ?_, fun h0 => ?_, rfl, rfl, execEffect_keepsRegsBut (.rnd x nn) s, by simp [execEffect]⟩
  · rw [drawn, BitVec.getLsbD_and, Bool.and_comm]
  · rw [drawn, h0]
    exact BitVec.and_zero

end Sys2Proof.Machine
end

section
/-! Proofs about the index register and memory transfers (43_index_memory.md): the numbers the index instructions
compute, the range check of a transfer, RAM and the registers after one, and the statements O42 to O47. -/

namespace Sys2Proof.Machine

/-! ## The index register (R190, R192, R193) -/

/-- R193: five times a byte fits a word, so the glyph's address is the product itself. -/
theorem toNat_glyphAddr (s : State) (x : Reg) : (s.glyphAddr x).toNat = 5 * (s.reg x).toNat := by
  rw [State.glyphAddr, BitVec.toNat_ofNat, Nat.mul_comm]
  exact Nat.mod_eq_of_lt (by omega)

/-- Settles O42: the words are in their rows, and each effect puts one number in I. -/
theorem indexLoads : Obligations.IndexLoads :=
  ⟨encodes_of_row (by simp [opcodeMap]), encodes_of_row (by simp [opcodeMap]),
    fun s nnn => completes_of_noFault rfl ⟨toNat_addrWord nnn, rfl, by simp [execEffect]⟩,
    fun s x => completes_of_noFault rfl ⟨toNat_glyphAddr s x, rfl, by simp [execEffect]⟩⟩

/-- VF after FX1E is the flag of the sum, also when the addend was VF. -/
theorem reg_execEffect_addIVx (s : State) (x : Reg) :
    (execEffect (.addIVx x) s).reg vF = indexFlag (s.indexSum x) :=
  (s.setIndex _).reg_setReg_same vF _

/-- Settles O43: I and the flag both come from the sum of the old operands. -/
theorem indexAddSetsRangeFlag : Obligations.IndexAddSetsRangeFlag := by
  intro s x
  have flag : ((execEffect (.addIVx x) s).reg vF).toNat = if s.indexSum x > 0xFFF then 1 else 0 := by
    rw [reg_execEffect_addIVx, toNat_indexFlag]
  exact completes_of_noFault rfl
    ⟨BitVec.toNat_ofNat _ _, flag, rfl, execEffect_keepsRegsBut (.addIVx x) s, by simp [execEffect]⟩

/-! ## The range check of a transfer (R191, R251) -/

section Transfers

variable {s : State} {i : Instr} {c : FaultCause} {n : Nat}

/-- An instruction guarded by the range check of the bytes I to I + n completes when the last of them is in RAM. -/
theorem completes_of_transfer {Q : State → Prop} (guard : execFault i s = (s.transferBad (n + 1)).map (c, ·))
    (h : s.i.toNat + n ≤ 0xFFF) (hQ : Q (execEffect i s)) : Completes i s Q := by
  refine completes_of_noFault ?_ hQ
  rw [guard, State.transferBad_of_le h, Option.map_none]

/-- Such an instruction faults at the lowest address outside RAM when the last byte is outside. -/
theorem raisesFault_of_transfer (guard : execFault i s = (s.transferBad (n + 1)).map (c, ·))
    (h : s.i.toNat + n > 0xFFF) : RaisesFault i s c (max s.i.toNat 0x1000) := by
  have bad : s.transferBad (n + 1) = some (max s.i.toNat 0x1000) :=
    firstBad_eq_some.2 ⟨⟨n.succ_pos, by omega⟩, rfl⟩
  refine raisesFault_of_execFault (by omega) ?_
  rw [guard, bad, Option.map_some]

end Transfers

/-! ## Stores (R194, R195) -/

/-- A number no greater than a byte is the number of the byte made of it. -/
theorem toNat_byte_of_le {b : Byte} {n : Nat} (h : n ≤ b.toNat) : (BitVec.ofNat 8 n).toNat = n :=
  Nat.mod_eq_of_lt (Nat.lt_of_le_of_lt h b.isLt)

section Stored

variable (s : State) (x : Reg)

theorem afterBcd_hundreds : (s.afterBcd x s.i.toNat).toNat = (s.reg x).toNat / 100 := by
  rw [State.afterBcd, if_pos rfl, toNat_byte_of_le (Nat.div_le_self _ _)]

theorem afterBcd_tens : (s.afterBcd x (s.i.toNat + 1)).toNat = (s.reg x).toNat / 10 % 10 := by
  rw [State.afterBcd, if_neg (by omega), if_pos rfl, toNat_byte_of_le (b := s.reg x) (by omega)]

theorem afterBcd_units : (s.afterBcd x (s.i.toNat + 2)).toNat = (s.reg x).toNat % 10 := by
  rw [State.afterBcd, if_neg (by omega), if_neg (by omega), if_pos rfl, toNat_byte_of_le (Nat.mod_le _ _)]

theorem afterBcd_outside {a : Nat} (h : a < s.i.toNat ∨ s.i.toNat + 2 < a) : s.afterBcd x a = s.ram.byte a := by
  rw [State.afterBcd, if_neg (by omega), if_neg (by omega), if_neg (by omega)]

theorem afterStoreRegs_inside {k : Reg} (h : k ≤ x) : s.afterStoreRegs x (s.i.toNat + k.val) = s.reg k := by
  have inside : s.i.toNat ≤ s.i.toNat + k.val ∧ s.i.toNat + k.val ≤ s.i.toNat + x.val :=
    ⟨Nat.le_add_right _ _, Nat.add_le_add_left h _⟩
  rw [State.afterStoreRegs, if_pos inside, Nat.add_sub_cancel_left, Fin.ofNat_val_eq_self]

theorem afterStoreRegs_outside {a : Nat} (h : a < s.i.toNat ∨ s.i.toNat + x.val < a) :
    s.afterStoreRegs x a = s.ram.byte a :=
  if_neg (by omega)

end Stored

/-- Settles O44: RAM after a store that passes the check is what `afterBcd` says, byte by byte. -/
theorem bcdStoresThreeDigits : Obligations.BcdStoresThreeDigits := by
  refine ⟨encodes_of_row (by simp [opcodeMap]), fun s x => ⟨fun hs h => ?_, raisesFault_of_transfer rfl⟩⟩
  have ram : ∀ a, (execEffect (.ldBVx x) s).ram.byte a = s.afterBcd x a := byte_after_ldBVx x hs h
  refine completes_of_transfer rfl h ⟨?_, ?_, ?_, fun a ha => ?_, rfl, by simp [execEffect]⟩
  · rw [ram, afterBcd_hundreds]
  · rw [ram, afterBcd_tens]
  · rw [ram, afterBcd_units]
  · rw [ram, afterBcd_outside s x ha]

/-- Settles O45: RAM after a store that passes the check is what `afterStoreRegs` says, byte by byte. -/
theorem storePutsRegistersInMemory : Obligations.StorePutsRegistersInMemory := by
  refine ⟨encodes_of_row (by simp [opcodeMap]), fun s x => ⟨fun hs h => ?_, raisesFault_of_transfer rfl⟩⟩
  have ram : ∀ a, (execEffect (.storeRegs x) s).ram.byte a = s.afterStoreRegs x a := byte_after_storeRegs hs h
  refine completes_of_transfer rfl h ⟨fun k hk => ?_, fun a ha => ?_, rfl, by simp [execEffect]⟩
  · rw [ram, afterStoreRegs_inside s x hk]
  · rw [ram, afterStoreRegs_outside s x ha]

/-! ## Loads (R196, R197) -/

/-- Settles O46: a load that passes the check takes the registers up to V[X] from RAM and the others as they were. -/
theorem loadTakesRegistersFromMemory : Obligations.LoadTakesRegistersFromMemory := by
  refine ⟨encodes_of_row (by simp [opcodeMap]), fun s x => ⟨fun h => ?_, raisesFault_of_transfer rfl⟩⟩
  have regs (k : Reg) : (execEffect (.loadRegs x) s).reg k =
      if k ≤ x then s.ram.byte (s.i.toNat + k.val) else s.reg k := s.reg_loadedRegs x k
  refine completes_of_transfer rfl h ⟨fun k hk => ?_, fun k hk => ?_, rfl, by simp [execEffect]⟩
  · rw [regs, if_pos hk]
  · rw [regs, if_neg (not_le_of_gt hk)]

/-- Settles O47: the load takes from each byte what the store put there, and nothing has written it since. -/
theorem storeThenLoadRestoresRegisters : Obligations.StoreThenLoadRestoresRegisters := by
  intro s x hs h
  obtain ⟨t, ht, stored, -⟩ := (storePutsRegistersInMemory.2 s x).1 hs h
  refine ⟨t, ht, fun u sameIndex unwritten => ?_⟩
  obtain ⟨w, hw, loaded, -⟩ := (loadTakesRegistersFromMemory.2 u x).1 (by rwa [sameIndex])
  refine ⟨w, hw, fun k hk => ?_⟩
  calc w.reg k = u.ram.byte (s.i.toNat + k.val) := by rw [loaded k hk, sameIndex]
    _ = t.ram.byte (s.i.toNat + k.val) := unwritten k.val hk
    _ = s.reg k := stored k hk

end Sys2Proof.Machine
end

section
/-! Proofs about the display (44_display.md): the drawn sprite pixel by pixel, the effect of DXYN on the state, the
order of the drawn bits, and the statements O48 to O51 and O59. -/

namespace Sys2Proof.Machine

/-! ## The clear (R210) -/

/-- Settles O48: the word is in the row of 00E0, and the effect replaces FB by the clear screen. -/
theorem clearScreenZeroesEveryPixel : Obligations.ClearScreenZeroesEveryPixel :=
  ⟨encodes_of_row (by simp [opcodeMap]),
    fun s => completes_of_noFault rfl ⟨pixel_clearScreen, rfl, by simp [execEffect]⟩⟩

/-! ## The drawn sprite, pixel by pixel (R211-R214) -/

/-- Settles O50: rows and columns wrap apart from each other, and neither dimension is longer than the screen. -/
theorem spritePixelsAreDistinct : Obligations.SpritePixelsAreDistinct := fun _ _ _ _ _ _ hr hr' hc hc' row col =>
  ⟨spriteRow_inj (by omega) (by omega) row, spriteCol_inj hc hc' col⟩

section Sprite

variable {s : State} {x y : Reg} {n : Nat}

theorem spriteAt_iff {r c : Nat} {py : Fin 32} {px : Fin 64} :
    s.spriteAt x y r c py px ↔ spriteCol (s.reg x).toNat c = px ∧ spriteRow (s.reg y).toNat r = py := by
  simp only [State.spriteAt, spriteCol, spriteRow, Fin.ext_iff, Fin.val_ofNat]

/-- The pixels under the 1-bits of the sprite are those the draw's loops hit. -/
theorem touched_iff_rowsHit {py : Fin 32} {px : Fin 64} :
    s.touched x y n py px ↔
      RowsHit (s.reg x).toNat (s.reg y).toNat 0 (s.ram.readBytes s.i.toNat n) py px := by
  simp only [State.touched, spriteAt_iff, RowsHit, RowHits, Memory.length_readBytes, Memory.getElem_readBytes,
    Nat.zero_add]
  constructor
  · rintro ⟨r, c, hr, hc, on, col, row⟩
    exact ⟨r, hr, row, c, hc, on, col⟩
  · rintro ⟨r, hr, row, c, hc, on, col⟩
    exact ⟨r, c, hr, hc, on, col, row⟩

/-- What is touched depends on I, the coordinates and the bytes of RAM alone. -/
theorem touched_congr {t : State} (hi : t.i = s.i) (hx : t.reg x = s.reg x) (hy : t.reg y = s.reg y)
    (hram : ∀ a, t.ram.byte a = s.ram.byte a) (py : Fin 32) (px : Fin 64) :
    t.touched x y n py px ↔ s.touched x y n py px := by
  simp only [State.touched, State.spriteOn, State.spriteAt, hi, hx, hy, hram]

/-- The draw collides when a 1-bit falls on a set pixel (R214). -/
def State.collides (s : State) (x y : Reg) (n : Nat) : Prop :=
  ∃ py px, s.touched x y n py px ∧ pixel s.fb py px = true

/-- The draw of a sprite, pixel by pixel: touched pixels flip, the others stay, and the collision is seen. -/
theorem drawSprite_spec (hn : n < 16) :
    (∀ py px, s.touched x y n py px → pixel (s.drawSprite x y n).1 py px = !pixel s.fb py px) ∧
    (∀ py px, ¬ s.touched x y n py px → pixel (s.drawSprite x y n).1 py px = pixel s.fb py px) ∧
    ((s.drawSprite x y n).2 = true ↔ s.collides x y n) := by
  have rows : (s.ram.readBytes s.i.toNat n).length ≤ 32 := by
    rw [Memory.length_readBytes]
    omega
  simpa only [State.collides, State.drawSprite, touched_iff_rowsHit, Bool.false_eq_true, false_or]
    using drawRows_spec (s.reg x).toNat (s.reg y).toNat _ 0 (s.fb, false) rows

/-! ## DXYN (R211-R215) -/

theorem reg_execEffect_drw : (execEffect (.drw x y n) s).reg vF = collisionFlag (s.drawSprite x y n).2 :=
  (s.setFb _).reg_setReg_same vF _

theorem execFault_drw_eq_none (h : n = 0 ∨ s.i.toNat + n - 1 ≤ 0xFFF) : execFault (.drw x y n) s = none :=
  Option.map_eq_none_iff.2 (firstBad_eq_none.2 (by omega))

end Sprite

/-- Settles O49: the effect of a draw that passes the range check is the sprite's pixels, its collision in VF and the
frame-ready flag. -/
theorem drawXorsTheSprite : Obligations.DrawXorsTheSprite := by
  intro s x y n hn
  constructor
  · intro inRam
    obtain ⟨flip, keep, hit⟩ := drawSprite_spec (s := s) (x := x) (y := y) hn
    have vf := reg_execEffect_drw (s := s) (x := x) (y := y) (n := n)
    refine completes_of_noFault (execFault_drw_eq_none inRam) ⟨flip, keep, fun h => ?_, fun h => ?_, rfl, rfl,
      execEffect_keepsRegsBut (.drw x y n) s, by simp [execEffect]⟩
    · exact vf.trans (congrArg collisionFlag (hit.2 h))
    · exact vf.trans (congrArg collisionFlag (Bool.eq_false_iff.2 (mt hit.1 h)))
  · rintro ⟨pos, outside⟩
    obtain ⟨k, rfl⟩ := Nat.exists_eq_add_one.2 pos
    exact raisesFault_of_transfer rfl outside

/-! ## Two identical draws (R217) -/

/-- Settles O51: the first draw leaves I, the coordinates and RAM alone, so the second touches the same pixels, each
of them flipped. -/
theorem doubleDrawRestoresTheScreen : Obligations.DoubleDrawRestoresTheScreen := by
  intro s x y n hn hx hy inRam
  obtain ⟨t, ht, flip, keep, -, -, -, -, regs, parts⟩ := (drawXorsTheSprite s x y n hn).1 inRam
  have sameIndex : t.i = s.i := parts .i (by decide)
  have sameSprite : ∀ py px, t.touched x y n py px ↔ s.touched x y n py px :=
    touched_congr sameIndex (regs x (by simpa using hx)) (regs y (by simpa using hy)) (parts .ram (by decide))
  obtain ⟨u, hu, flip', keep', vfOne, vfZero, -⟩ := (drawXorsTheSprite t x y n hn).1 (by rwa [sameIndex])
  refine ⟨t, ht, u, hu, framebuffer_ext fun py px => ?_, ?_⟩
  · by_cases h : s.touched x y n py px
    · rw [flip' py px ((sameSprite py px).2 h), flip py px h, Bool.not_not]
    · rw [keep' py px (mt (sameSprite py px).1 h), keep py px h]
  · have collision : t.collides x y n ↔ ∃ py px, s.touched x y n py px ∧ pixel s.fb py px = false := by
      refine exists₂_congr fun py px => ?_
      rw [sameSprite]
      exact and_congr_right fun h => by rw [flip py px h, Bool.not_eq_true']
    rw [← collision]
    refine ⟨fun one => by_contra fun h => ?_, vfOne⟩
    exact absurd ((vfZero h).symm.trans one) (by decide)

/-! ## The order of the drawn bits (R216) -/

theorem pixel_flipPixel_other (fb : Framebuffer) {y y' : Fin 32} {x x' : Fin 64} (h : ¬ (y' = y ∧ x' = x)) :
    pixel (flipPixel fb y x) y' x' = pixel fb y' x' := by
  rw [pixel_flipPixel, if_neg h]

theorem flipPixel_comm (fb : Framebuffer) {y y' : Fin 32} {x x' : Fin 64} (h : ¬ (y' = y ∧ x' = x)) :
    flipPixel (flipPixel fb y x) y' x' = flipPixel (flipPixel fb y' x') y x := by
  have h' : ¬ (y = y' ∧ x = x') := fun e => h ⟨e.1.symm, e.2.symm⟩
  refine framebuffer_ext fun py px => ?_
  by_cases first : py = y ∧ px = x
  · obtain ⟨rfl, rfl⟩ := first
    simp only [pixel_flipPixel, if_neg h', and_self, if_true]
  · simp only [pixel_flipPixel, if_neg first, if_neg h]

/-- Drawing two bits, of any rows, gives the same canvas in either order: two 1-bits on one pixel are the same flip
twice, and on two pixels neither sees the other. -/
theorem drawBit_comm (py py' : Fin 32) (x0 c c' : Nat) (b b' : Byte) (cv : Canvas) :
    drawBit py' x0 b' (drawBit py x0 b cv c) c' = drawBit py x0 b (drawBit py' x0 b' cv c') c := by
  unfold drawBit
  cases spriteBit b c with
  | false => simp only [Bool.false_eq_true, if_false]
  | true =>
    cases spriteBit b' c' with
    | false => simp only [Bool.false_eq_true, if_false]
    | true =>
      by_cases same : py' = py ∧ spriteCol x0 c' = spriteCol x0 c
      · obtain ⟨rfl, col⟩ := same
        rw [col]
      · have same' : ¬ (py = py' ∧ spriteCol x0 c = spriteCol x0 c') := fun e => same ⟨e.1.symm, e.2.symm⟩
        simp only [if_true, flipPixel_comm cv.1 same, pixel_flipPixel_other cv.1 same,
          pixel_flipPixel_other cv.1 same', Bool.or_right_comm]

/-- The bit of the sprite at place `p`, row and column, drawn on a canvas. -/
def State.drawPlace (s : State) (x y : Reg) (cv : Canvas) (p : Nat × Nat) : Canvas :=
  drawBit (spriteRow (s.reg y).toNat p.1) (s.reg x).toNat (s.ram.byte (s.i.toNat + p.1)) cv p.2

/-- The places of a sprite of `n` rows, row by row. -/
def spritePlaces (n : Nat) : List (Nat × Nat) := (List.range n).flatMap fun r => (List.range 8).map fun c => (r, c)

/-- The loop over the rows, with the rows' bytes given by their row offsets. -/
theorem drawRows_map_range' (x0 y0 : Nat) (row : Nat → Byte) (n : Nat) : ∀ (r : Nat) (cv : Canvas),
    drawRows x0 y0 r ((List.range' r n).map row) cv =
      (List.range' r n).foldl (fun cv k => drawRow (spriteRow y0 k) x0 (row k) cv) cv := by
  induction n with
  | zero => exact fun _ _ => rfl
  | succ n ih => exact fun r cv => ih (r + 1) _

/-- The draw visits the places row by row. -/
theorem foldl_drawPlace_spritePlaces (s : State) (x y : Reg) (n : Nat) :
    (spritePlaces n).foldl (s.drawPlace x y) (s.fb, false) = s.drawSprite x y n := by
  simp only [spritePlaces, List.foldl_flatMap, List.foldl_map, State.drawSprite, Memory.readBytes,
    List.range_eq_range' (n := n), drawRows_map_range']
  rfl

/-- Settles O59: bits commute, so every order gives what the draw's own order gives. -/
theorem pixelOrderDoesNotMatter : Obligations.PixelOrderDoesNotMatter := by
  intro s x y n places _ perm
  calc places.foldl (s.drawPlace x y) (s.fb, false)
    _ = (spritePlaces n).foldl (s.drawPlace x y) (s.fb, false) :=
      perm.foldl_eq' (fun _ _ _ _ cv => drawBit_comm _ _ _ _ _ _ _ cv) _
    _ = s.drawSprite x y n := foldl_drawPlace_spritePlaces s x y n

end Sys2Proof.Machine
end

section
/-! Proofs about keyboard input and timer transfers (45_input_timers.md): the key skips by the level of the key, the
key wait by the least pressed key, the timers over a whole step, and the statements O52 to O55. -/

namespace Sys2Proof.Machine

/-! ## The key wait (R234) -/

/-- R234: an FX0A that finds a key stores its index and goes on. -/
theorem exec_ldVxK_of_leastKey {s : State} {k : Nat} (h : s.leastKey = some k) (x : Reg) :
    exec (.ldVxK x) s = .next (s.setReg x (BitVec.ofNat 8 k)).advance := by
  rw [exec_of_noFault rfl, execEffect, h, Option.elim_some]

/-- Settles O54: the search answers the least pressed key, whose index fits a byte, or none. -/
theorem keyWaitTakesTheLeastPressedKey : Obligations.KeyWaitTakesTheLeastPressedKey := by
  refine fun s x => ⟨fun k down least => ?_, fun up => ?_⟩
  · have found : s.leastKey = some k.val :=
      s.leastKey_eq_some.2 ⟨k.isLt, down, fun j hj => least ⟨j, hj.trans k.isLt⟩ hj⟩
    have index : (BitVec.ofNat 8 k.val).toNat = k.val := Nat.mod_eq_of_lt (k.isLt.trans (by decide))
    exact completes_setReg (exec_ldVxK_of_leastKey found x) fun _ hx => by rw [hx, index]
  · rw [exec_of_noFault rfl, execEffect_ldVxK_of_noKey up]

/-! ## The timer transfers (R233, R235, R236) -/

/-- Settles O55: the words are in their rows; each effect copies one byte, and the tick comes after it. -/
theorem timerTransfersCopyTheByte : Obligations.TimerTransfersCopyTheByte := by
  refine ⟨encodes_of_row (by simp [opcodeMap]), encodes_of_row (by simp [opcodeMap]),
    encodes_of_row (by simp [opcodeMap]), fun s x => ⟨?_, ?_, ?_, fun hi => ?_, fun hi => ?_, fun hi => ?_⟩⟩
  · exact completes_setReg rfl fun _ hx => hx
  · exact completes_of_noFault rfl ⟨rfl, rfl, by simp [execEffect]⟩
  · exact completes_of_noFault rfl ⟨rfl, rfl, by simp [execEffect]⟩
  · have copied : (execEffect (.ldVxDt x) (s.latch s.wordAtPc)).reg x = s.dt := State.reg_setReg_same _ x s.dt
    exact ⟨_, step_of_noFault hi rfl, copied, (timers_of_executed (.ldVxDt x) (s.latch s.wordAtPc)).1⟩
  · exact ⟨_, step_of_noFault hi rfl, timers_of_executed (.ldDtVx x) (s.latch s.wordAtPc)⟩
  · exact ⟨_, step_of_noFault hi rfl, (timers_of_executed (.ldStVx x) (s.latch s.wordAtPc)).symm⟩

/-! ## The key skips (R230-R232) -/

section KeySkips

variable {s : State} {x : Reg}

theorem exec_skp_of_lt (h : (s.reg x).toNat < 16) : exec (.skp x) s = .next (s.skipIf s.keys[(s.reg x).toNat]) := by
  simp only [exec, execSkp, s.key?_of_lt h]

theorem exec_sknp_of_lt (h : (s.reg x).toNat < 16) :
    exec (.sknp x) s = .next (s.skipIf !s.keys[(s.reg x).toNat]) := by
  simp only [exec, execSknp, s.key?_of_lt h]

end KeySkips

theorem pc_skipIf (s : State) (c : Bool) : (s.skipIf c).pc = s.pc + (if c = true then 4#16 else 2#16) := by
  cases c <;> rfl

theorem pc_skipIf_not (s : State) (c : Bool) : (s.skipIf !c).pc = s.pc + (if c = true then 2#16 else 4#16) := by
  cases c <;> rfl

/-- Settles O52: a key index up to 15 has a level, and each effect is a skip on it. -/
theorem keySkipsTestTheLatch : Obligations.KeySkipsTestTheLatch := fun s _ h =>
  ⟨⟨_, exec_skp_of_lt h, pc_skipIf s _, by simp⟩, ⟨_, exec_sknp_of_lt h, pc_skipIf_not s _, by simp⟩⟩

/-- Settles O53: a key index above 15 is the guard's condition for the fault, and it fits the fault address. -/
theorem keyIndexAbove15IsFatal : Obligations.KeyIndexAbove15IsFatal := by
  intro s x h
  have fits : (s.reg x).toNat < 0x10000 := (s.reg x).isLt.trans (by decide)
  exact ⟨raisesFault_of_execFault fits (if_pos h), raisesFault_of_execFault fits (if_pos h)⟩

end Sys2Proof.Machine
end

section
/-! Proofs about exceptions (60_exceptions.md): a decode fault under either policy, a fatal fault as the record and the
halt alone, and the statements O22 to O24. -/

namespace Sys2Proof.Machine

/-! ## Decode faults (R252) -/

/-- R120, R122: a running machine that fetches a word with no meaning latches it and takes the policy's decode fault. -/
theorem stepWith_of_decodeFault {s : State} {f : DecodeFault} (can : s.CanFetch)
    (hd : decodeWord s.wordAtPc = .error f) (policy : DecodeFaultPolicy) :
    stepWith policy s = .next ((s.latch s.wordAtPc).decodeFault policy s.wordAtPc) := by
  simp [stepWith, runWord, can.1, State.fetch_of_canFetch can, hd]

@[simp] theorem State.decodeFault_skip (s : State) (w : Word) :
    s.decodeFault .skip w = ((s.recordFault .decode s.pc w 0#16).advance.tick).report .decodeSkipped := rfl

/-- R252, R253: under `fatal` a decode fault is a fatal fault like the others. -/
@[simp] theorem State.decodeFault_fatal (s : State) (w : Word) :
    s.decodeFault .fatal w = (s.fatalFault .decode w 0#16).report .fault := rfl

@[simp] theorem keepsAllBut_tick {ps : List Part} {s t : State} (hd : .dt ∈ ps) (hs : .st ∈ ps) :
    KeepsAllBut ps s t.tick ↔ KeepsAllBut ps s t :=
  (keepsAllBut_setSt (t := t.setDt (countDown t.dt)) hs (countDown t.st)).trans (keepsAllBut_setDt hd _)

/-- R252: the word after a fetched one is at pc + 2, with no wrap. -/
theorem State.CanFetch.toNat_pc_advance {s : State} (can : s.CanFetch) : (s.pc + 2#16).toNat = s.pc.toNat + 2 := by
  obtain ⟨-, hp⟩ := can
  rw [BitVec.toNat_add]
  exact Nat.mod_eq_of_lt (Nat.lt_of_le_of_lt (Nat.add_le_add_right hp 2) (by decide))

/-- Settles O22: the policy picks between the skip and the fatal fault, and this hardware's policy is `skip`. -/
theorem decodeFaultFollowsThePolicy : Obligations.DecodeFaultFollowsThePolicy := by
  intro s f can hd
  refine ⟨⟨_, stepWith_of_decodeFault can hd .skip, ?_⟩, ⟨_, stepWith_of_decodeFault can hd .fatal, ?_⟩, rfl⟩
  · exact ⟨rfl, rfl, rfl, rfl, can.toNat_pc_advance, toNat_countDown _, toNat_countDown _, rfl, rfl, by simp⟩
  · exact ⟨⟨rfl, rfl, rfl, rfl, rfl⟩, rfl, rfl, by simp⟩

/-! ## Fatal faults (R253, R254, R256) -/

/-- Settles O23: of the five cases of a step only a faulting fetch and a fault of the execute phase answer FAULT, and
each is a `fatalFault` of the state it was raised in. -/
theorem fatalFaultsArePrecise : Obligations.FatalFaultsArePrecise := by
  intro s t h hfault
  cases step_inv h with
  | halted | decodeFault | executed => cases hfault
  | fetchFault | execFault => exact ⟨rfl, rfl, by simp⟩

/-- Settles O24: an execute phase completes with `halted` as it was, or takes the fault listed for it. -/
theorem instructionsRaiseOnlyTheirFault : Obligations.InstructionsRaiseOnlyTheirFault := by
  intro i s running
  rcases exec_cases i s with ⟨t, he, -, -, -, ht, -⟩ | ⟨c, a, hc, he⟩
  · exact ⟨t, he, fun halts => absurd (ht.symm.trans halts) (by simp [running])⟩
  · exact ⟨_, he, fun _ => hc⟩

end Sys2Proof.Machine
end

section
/-! Proofs about reset and the host's transactions (70_reset_and_hazards.md): RAM after a reset, what each transaction
answers and keeps, and the statements O26, O27 and O56 to O58. -/

namespace Sys2Proof.Machine

/-! ## Reset (R280) -/

/-- R280, R45: reset leaves FONT_ROM in the lowest 80 bytes of RAM and zeros above. -/
theorem State.byte_new_ram (start : Word) (font : Vector Byte 80) (a : Nat) :
    (State.new start font).ram.byte a = if h : a < 80 then font[a] else 0x00#8 := by
  split
  case isTrue h =>
    have inside := Memory.byte_ofBytes_inside font.toList 0x000 a (h.trans_eq Vector.length_toList.symm)
    rwa [Nat.zero_add, Vector.getElem_toList] at inside
  case isFalse h => exact Memory.byte_ofBytes_outside font.toList 0x000 a (.inr (by simpa using h))

@[simp] theorem State.new_reg (start : Word) (font : Vector Byte 80) (k : Reg) : (State.new start font).reg k = 0#8 :=
  Vector.getElem_replicate k.isLt

/-- Settles O56: RAM is the font and zeros, every other element is a field of the construction, and the reset
transaction is that construction. -/
theorem resetSetsEveryElement : Obligations.ResetSetsEveryElement := by
  intro start font
  refine ⟨State.byte_new_ram start font, State.new_reg start font, rfl, rfl, fun j => ?stack, rfl, rfl, fun py px => ?fb,
    rfl, rfl, rfl, fun k => ?keys, rfl, rfl, rfl, rfl, rfl, rfl, fun u => rfl⟩
  case stack => exact Vector.getElem_replicate j.isLt
  case fb => exact pixel_clearScreen py px
  case keys => exact Vector.getElem_replicate k.isLt

/-- R280, R29: the construction at a start address inside the bound of pc has the invariant. -/
theorem State.new_inv {start : Word} (h : start.toNat ≤ 0x10FE) (font : Vector Byte 80) :
    (State.new start font).Inv where
  ramWf := Memory.ofBytes_wf font.toList 0x000 (by simp [Config.memSize])
  stackBound j := by simp
  pcBound := h
  faultLegal := ⟨rfl, rfl, rfl, rfl⟩

/-- Settles O26: this hardware's start address is inside the bound of pc. -/
theorem resetHasTheInvariant : Obligations.ResetHasTheInvariant := State.new_inv (by decide) Config.fontRom

section Transactions

variable {s t : State}

/-! ## Load (R283, R284) and the load port (R290) -/

theorem State.load_eq_next {bytes : List Byte} :
    s.load bytes = .next t ↔ bytes.length ≤ 3584 ∧ s.setRam (s.ram.writeBytes 0x200 bytes) = t := by
  unfold State.load
  split
  case isTrue h => simp [h]
  case isFalse h => simp [h]

theorem State.load_eq_imageTooLong {bytes : List Byte} (h : bytes.length > 3584) :
    s.load bytes = .refused .imageTooLong :=
  if_neg (Nat.not_le_of_gt h)

theorem State.loadByte_eq_next {offset : BitVec 12} {b : Byte} :
    s.loadByte offset b = .next t ↔
      ¬ 0x200 + offset.toNat > 0xFFF ∧ s.setRam (s.ram.write (0x200 + offset.toNat) b) = t := by
  unfold State.loadByte
  cases hw : s.ram.write? (0x200 + offset.toNat) b with
  | none => simp [Memory.write?_eq_none.1 hw]
  | some m =>
    obtain ⟨hle, rfl⟩ := Memory.write?_eq_some.1 hw
    simp [hle]

/-! ## Frames of the keyboard port (R291) and of the frame-ready clear (R292) -/

@[simp] theorem keepsAllBut_setKeys {ps : List Part} (h : .keys ∈ ps) (down : BitVec 16) :
    KeepsAllBut ps s (t.setKeys down) ↔ KeepsAllBut ps s t :=
  keepsAllBut_update h fun p hp => by cases p with | keys => exact absurd rfl hp | _ => simp [Part.same]

@[simp] theorem keepsAllBut_clearFrame {ps : List Part} (h : .frameReady ∈ ps) :
    KeepsAllBut ps s t.clearFrame ↔ KeepsAllBut ps s t :=
  keepsAllBut_update h fun p hp => by cases p with | frameReady => exact absurd rfl hp | _ => exact Iff.rfl

/-! ## The invariant over the transactions (R294) -/

/-- The draw count, which a reset transaction keeps, is no part of the invariant. -/
theorem State.restart_inv (s : State) {start : Word} (h : start.toNat ≤ 0x10FE) (font : Vector Byte 80) :
    (s.restart start font).Inv :=
  have new := State.new_inv h font
  ⟨new.ramWf, new.stackBound, new.pcBound, new.faultLegal⟩

/-- RAM enters the invariant by its canonical form alone. -/
theorem State.Inv.setRam (h : s.Inv) {m : Memory} (hm : m.wf) : (s.setRam m).Inv :=
  ⟨hm, h.stackBound, h.pcBound, h.faultLegal⟩

/-- The keyboard latch is no part of the invariant. -/
theorem State.Inv.setKeys (h : s.Inv) (down : BitVec 16) : (s.setKeys down).Inv where
  ramWf := by simpa using h.ramWf
  stackBound := by simpa using h.stackBound
  pcBound := by simpa using h.pcBound
  faultLegal := by simpa [State.FaultLegal] using h.faultLegal

/-- The frame-ready flag is no part of the invariant. -/
theorem State.Inv.clearFrame (h : s.Inv) : s.clearFrame.Inv :=
  ⟨h.ramWf, h.stackBound, h.pcBound, h.faultLegal⟩

theorem State.Inv.load (h : s.Inv) {bytes : List Byte} (ht : s.load bytes = .next t) : t.Inv := by
  obtain ⟨hlen, rfl⟩ := State.load_eq_next.1 ht
  exact h.setRam (Memory.writeBytes_wf bytes s.ram 0x200 h.ramWf (Nat.add_le_add_left hlen 0x200))

theorem State.Inv.loadByte (h : s.Inv) {offset : BitVec 12} {b : Byte} (ht : s.loadByte offset b = .next t) :
    t.Inv := by
  obtain ⟨hle, rfl⟩ := State.loadByte_eq_next.1 ht
  exact h.setRam (Memory.write_wf h.ramWf b (Nat.lt_succ_of_le (Nat.le_of_not_lt hle)))

end Transactions

/-! ## The statements about the host's transactions -/

/-- Settles O57: the image is a run of stores that fits from 0x200, and a longer one fails the test of its length. -/
theorem loadCopiesTheImage : Obligations.LoadCopiesTheImage := by
  refine fun s bytes => ⟨fun hlen hs => ?_, State.load_eq_imageTooLong⟩
  have fits : 0x200 + bytes.length ≤ Config.memSize := Nat.add_le_add_left hlen 0x200
  refine ⟨_, State.load_eq_next.2 ⟨hlen, rfl⟩, fun k hk => ?image, fun a ha => ?outside, by simp⟩
  case image =>
    rw [getElem!_pos bytes k hk]
    exact Memory.byte_writeBytes_inside bytes s.ram 0x200 hs fits k hk
  case outside => exact Memory.byte_writeBytes_outside bytes s.ram 0x200 a ha

/-- Settles O58: each port is the update of one latch. -/
theorem hostPortsTouchOnlyTheirLatch : Obligations.HostPortsTouchOnlyTheirLatch := fun s =>
  ⟨fun down => ⟨s.setKeys down, rfl, fun _ => by simp, by simp⟩, s.clearFrame, rfl, rfl, by simp⟩

/-- Settles O27, by the six transactions: a reset builds a state with the invariant, each of the others keeps it. -/
theorem hostKeepsTheInvariant : Obligations.HostKeepsTheInvariant := by
  intro s t a h hstart ht
  cases a with
  | rst start font => cases ht; exact s.restart_inv (hstart start font rfl) font
  | load bytes => exact h.load ht
  | loadByte offset b => exact h.loadByte ht
  | keyDown down => cases ht; exact h.setKeys down
  | frameReadyClr => cases ht; exact h.clearFrame
  | stepReq => exact stepKeepsTheInvariant s t h ht

end Sys2Proof.Machine
end
